-- ==== Sys2Proof/Word.lean ====
section
/-! DEFINITION. The widths of `chip8_cpu` (spec/00_scope.md R5, R9; spec/30_encoding.md R71, R72).
Every value of this hardware is unsigned; bit 0 is the least significant bit (R9). -/

namespace Sys2Proof

/-- An 8-bit value: a general register, a timer, a memory byte, an `nn` immediate (R5 `XLEN`). -/
abbrev Byte := BitVec 8

/-- A 16-bit value: an opcode, PC, I, a stack entry, INFO (R5 `ALEN`, `ILEN`). -/
abbrev Word := BitVec 16

/-- A register index, the `x` or `y` field of an opcode: always 4 bits, so never out of range (R20, R77). -/
abbrev RegIx := BitVec 4

/-- A sprite height, the `n` field of DXYN: 0 to 15 (R72). -/
abbrev Height := BitVec 4

/-- A 12-bit absolute address, the `nnn` field (R72). -/
abbrev Addr12 := BitVec 12

/-- VF, register 15, which doubles as the status flag (R21). -/
abbrev regF : RegIx := 15#4

end Sys2Proof
end

