-- ==== Sys2Proof/Config.lean ====
section
/-! DEFINITION. What is fixed for the machine (spec/00_scope.md R5), the open reset parameter
`DIRTY_RESET` (R6), the four steps of R7, and the free values: the values the spec leaves unspecified, as constants with no
body. The parameters a test could show wrong (`FONT`, `FONT_BASE`, `SHL_FLAG`) stand in
Sys2Proof/Machine/Params.lean. -/

namespace Sys2Proof.Machine

/-- The four atomic steps by which the machine's state changes (R7). -/
inductive Event where
  /-- `Cycle`: the CPU runs one instruction (R100). -/
  | cycle
  /-- `Tick`: both timers count down (R179). -/
  | tick
  /-- `KeyWrite(k)`: the host replaces the 16 key flags (R171). -/
  | keyWrite (k : Word)
  /-- `FrameRead`: the host reads the framebuffer and clears the dirty flag (R156). -/
  | frameRead
  deriving DecidableEq, Repr, Inhabited

end Sys2Proof.Machine

namespace Sys2Proof.Config

/-- `MEM_SIZE`: bytes of memory (R5, R50). -/
abbrev memSize : Nat := 4096

/-- `PROG_BASE`: load address of the ROM and reset value of PC (R5, R22). -/
abbrev progBase : Nat := 0x200

/-- `ROM_MAX`: the largest ROM length in bytes (R5, R205). -/
abbrev romMax : Nat := 0xE00

/-- `NREGS`: general registers V0 to VF (R5, R20). -/
abbrev nregs : Nat := 16

/-- `STACK_DEPTH`: the most return addresses the stack holds (R5, R24). -/
abbrev stackDepth : Nat := 16

/-- `DISP_W`: display width in pixels (R5, R27). -/
abbrev dispW : Nat := 64

/-- `DISP_H`: display height in pixels (R5, R27). -/
abbrev dispH : Nat := 32

/-- `NKEYS`: key flags (R5, R28). -/
abbrev nkeys : Nat := 16

/-- `TICK_HZ`: nominal rate of the timer tick; "not used by any rule" (R5, R241). -/
abbrev tickHz : Nat := 60

/-- `DIRTY_RESET`: left OPEN by the spec with default 0 (R6, R29, D14). DESIGN CHOICE: the default is the value
of `State.reset`; `construct` takes the value as an argument (log entry 6). -/
def dirtyReset : Bool := false

/-- FREE VALUE (log entry 2): the k-th unspecified byte the machine meets. It stands for a target byte of a
faulting FX33 or FX55 and for a target register of a faulting FX65 (R203, U5). Nothing constrains it. -/
opaque freeByte : Nat → Byte

/-- FREE VALUE (log entry 2): the k-th unspecified 16-bit value the machine meets: I after a faulting
FX55 or FX65 (R203, U5). Nothing constrains it. -/
opaque freeWord : Nat → Word

/-- FREE VALUE (log entry 3): the k-th step that an unconstrained host and CPU take. The hardware fixes neither the order
nor the frequency of the steps (R7, R181, R243, U17). Nothing constrains it. -/
opaque freeEvent : Nat → Machine.Event

end Sys2Proof.Config
end

