-- ==== Sys2Proof/Machine/State.lean ====
section
/-! DEFINITION. The state of the machine (spec/10_state.md R20 to R34; spec/20_memory.md R50), and the state right
after reset (R33, R230). Everything is plain data. Three fields are the model's own and not the spec's: `schedule`
and `driver`, the steps still to come (R6, R7, log entry 3), and `freeIx`, the counter of free values (log entry 2). -/

namespace Sys2Proof.Machine

/-- The sixteen general registers, one flat file, none hardwired (R20). -/
abbrev RegFile := Vector Byte Config.nregs

/-- The 16 stack entries `STK[0]` to `STK[15]` (R24). -/
abbrev StackFile := Vector Word Config.stackDepth

/-- The framebuffer: `FB[y][x]`, `y` the row from the top, `x` the column from the left, true = on (R27). -/
abbrev Framebuffer := Vector (Vector Bool Config.dispW) Config.dispH

/-- The 4096-byte memory (R50) as the list of the bytes that differ from the construction contents, in rising order of
address (`Memory.wf` in Ops.lean is this form). What an unlisted address reads as is `resetByte` (Params.lean). -/
abbrev Memory := List Host.Cell

/-- `CAUSE`, the eight fault codes of R200 (`Cause.code` gives the number). -/
inductive Cause where
  /-- 0, "never raised; the reset value". -/
  | none
  /-- 1, the fetched word matches no row of R74. -/
  | decodeError
  /-- 2, instruction fetch with `pc + 1 >= 4096`. -/
  | fetch
  /-- 3, a data access at an address of 4096 or more. -/
  | memory
  /-- 4, `Push` with SP = 16. -/
  | stackOverflow
  /-- 5, `Pop` with SP = 0. -/
  | stackUnderflow
  /-- 6, EX9E or EXA1 with VX > 15. -/
  | keyIndex
  /-- 7, construction with a ROM longer than 0xE00 bytes. -/
  | resourceError
  deriving DecidableEq, Repr

/-- What follows when `schedule` is empty: the host's whole future, a launch parameter of the machine (R6). The three
together, with a `schedule` before them, admit every interleaving of the steps of R7, endless ones too (log entry 3). -/
inductive Driver where
  /-- The host does nothing more: the CPU cycles of its own accord (R233). -/
  | alone
  /-- The host repeats these steps, `first` and then `rest`, without end: so many cycles to a tick, for example (D22). -/
  | repeats (first : Event) (rest : List Event)
  /-- Any host at all: the next step is the free value `Config.freeEvent k`, the one after it `Config.freeEvent (k + 1)`,
  without end (R7, R181, R243). -/
  | free (k : Nat)
  deriving DecidableEq, Repr

structure State where
  /-- V0 to VF (R20). -/
  v : RegFile
  /-- The program counter (R22). -/
  pc : Word
  /-- I, the 16-bit index register (R23). -/
  i : Word
  /-- `STK[0..15]` (R24). -/
  stk : StackFile
  /-- `SP`, the depth counter: 0 to 16 (R24, R32). -/
  sp : Fin (Config.stackDepth + 1)
  /-- `DT`, the delay timer (R26). -/
  dt : Byte
  /-- `ST`, the sound timer (R26). -/
  st : Byte
  /-- `FB`, the framebuffer (R27). -/
  fb : Framebuffer
  /-- `DIRTY` (R29). -/
  dirty : Bool
  /-- `KEY[0..15]`, bit k = key k is down (R28). -/
  keys : Word
  /-- `HALTED` (R30). -/
  halted : Bool
  /-- `CAUSE` (R30, R200). -/
  cause : Cause
  /-- `INFO` (R30, R200). -/
  info : Word
  /-- `MEM` (R31, R50). -/
  mem : Memory
  /-- The MODEL's own: the steps decided on so far, first one first; after them come those of `driver` (R6, R7; log
  entry 3). -/
  schedule : List Event
  /-- The MODEL's own: the steps that follow when `schedule` is empty, without end (R6, R7; log entries 3, 29). -/
  driver : Driver
  /-- The MODEL's own: how many free values have been used (log entry 2). -/
  freeIx : Nat
  deriving DecidableEq, Repr

/-- Why a step could stop the model: NEVER. Every fatal error of this hardware is taken as the spec describes its
entry, into the HALTED, CAUSE, INFO latch (R203, R204), and is a next state; so this type has no constructor (log
entry 1). -/
inductive Fault where
  deriving DecidableEq, Repr

/-- Why a step could be refused. -/
inductive Refusal where
  /-- Raised by an arm of `exec` for an instruction without a meaning. No arm raises it now. Safe: the run stops. -/
  | notModelled (mnemonic : String)
  deriving DecidableEq, Repr

/-- The machine right after construction with an empty ROM (R33, R230): "An empty ROM is legal" (R231). Values the
spec does not state (STK, DIRTY, freeIx, driver) are named in log entries 5, 6, 2 and 29. -/
def State.reset : State where
  v := Vector.replicate Config.nregs 0#8
  pc := BitVec.ofNat 16 Config.progBase
  i := 0#16
  stk := Vector.replicate Config.stackDepth 0#16
  sp := 0
  dt := 0#8
  st := 0#8
  fb := Vector.replicate Config.dispH (Vector.replicate Config.dispW false)
  dirty := Config.dirtyReset
  keys := 0#16
  halted := false
  cause := .none
  info := 0#16
  mem := []
  schedule := []
  driver := .alone
  freeIx := 0

end Sys2Proof.Machine
end

