-- ==== Sys2Proof/Machine/Params.lean ====
section
/-! DEFINITION. The parameters of R5 that a test could show wrong: where the font stands, its bytes, and the choice of
8XYE's flag; and from them the construction contents of memory (spec/20_memory.md R57, R58). -/

namespace Sys2Proof.Machine

/-- `FONT_BASE`, "conventionally 0x50", fixed at 0x050 by D11 (R5; log entry 7). -/
def fontBase : Nat := 0x050

/-- `GLYPH_H`: bytes per glyph (R5). -/
def glyphHeight : Nat := 5

/-- `FONT`: 16 glyphs of 5 bytes. PRESUMED: the spec's default table U9 is from general knowledge, the source gives no
byte (R5, D12; log entry 8). -/
def font : List Byte :=
  [0xF0#8, 0x90#8, 0x90#8, 0x90#8, 0xF0#8,  0x20#8, 0x60#8, 0x20#8, 0x20#8, 0x70#8,
   0xF0#8, 0x10#8, 0xF0#8, 0x80#8, 0xF0#8,  0xF0#8, 0x10#8, 0xF0#8, 0x10#8, 0xF0#8] ++
  [0x90#8, 0x90#8, 0xF0#8, 0x10#8, 0x10#8,  0xF0#8, 0x80#8, 0xF0#8, 0x10#8, 0xF0#8,
   0xF0#8, 0x80#8, 0xF0#8, 0x90#8, 0xF0#8,  0xF0#8, 0x10#8, 0x20#8, 0x40#8, 0x40#8] ++
  [0xF0#8, 0x90#8, 0xF0#8, 0x90#8, 0xF0#8,  0xF0#8, 0x90#8, 0xF0#8, 0x10#8, 0xF0#8,
   0xF0#8, 0x90#8, 0xF0#8, 0x90#8, 0x90#8,  0xE0#8, 0x90#8, 0xE0#8, 0x90#8, 0xE0#8] ++
  [0xF0#8, 0x80#8, 0x80#8, 0x80#8, 0xF0#8,  0xE0#8, 0x90#8, 0x90#8, 0x90#8, 0xE0#8,
   0xF0#8, 0x80#8, 0xF0#8, 0x80#8, 0xF0#8,  0xF0#8, 0x80#8, 0xF0#8, 0x80#8, 0x80#8]

/-- What 8XYE writes to VF (R5 `SHL_FLAG`, U1). -/
inductive ShlFlag where
  /-- The rule: bit 7 of the old VX (R132, D7). -/
  | msbOfVx
  /-- The original program's defect: always 0 (U1). -/
  | alwaysZero
  deriving DecidableEq, Repr

/-- `SHL_FLAG` = `msb_of_vx`, "the default and the rule" (R5, U1, C2). -/
def shlFlag : ShlFlag := .msbOfVx

/-- The construction contents of a byte before the ROM is loaded: the font at `FONT_BASE`, zero everywhere else (R57,
R58, D13). This is what an address that memory does not list reads as. -/
def resetByte (a : Nat) : Byte :=
  if fontBase ≤ a then font.getD (a - fontBase) 0#8 else 0#8

end Sys2Proof.Machine
end

