-- ==== Sys2Proof/Machine/Ops.lean ====
section
/-! DEFINITION. The named operations over memory, registers, stack, display, keys and timers, and the one operation by
which every fault is taken (`State.raise`). There is no return from a fault: "The halted state is permanent"
(spec/60_exceptions.md R204), so none stands beside it. -/

namespace Sys2Proof.Machine

/-! ### Memory (spec/20_memory.md) -/

/-- A read returns the last value written, or the construction value (R56, R60). -/
def Memory.load : Memory → Nat → Byte
  | [], a => resetByte a
  | (c, b) :: m, a => if c = a then b else Memory.load m a

/-- Memory without an entry for `a`. -/
def Memory.erase (m : Memory) (a : Nat) : Memory := m.filter fun c => c.1 != a

/-- Memory with the entry `(a, b)` put before the first higher address. -/
def Memory.insert (a : Nat) (b : Byte) : Memory → Memory
  | [] => [(a, b)]
  | (c, d) :: m => if a < c then (a, b) :: (c, d) :: m else (c, d) :: Memory.insert a b m

/-- A byte write: every byte is plain storage (R56, R59). The construction value is held by having no entry. -/
def Memory.store (m : Memory) (a : Nat) (b : Byte) : Memory :=
  if b = resetByte a then m.erase a else Memory.insert a b (m.erase a)

/-- Byte writes at ascending addresses, the first item at the lowest address (R54). -/
def Memory.storeBytes : Memory → Nat → List Byte → Memory
  | m, _, [] => m
  | m, a, b :: bs => Memory.storeBytes (m.store a b) (a + 1) bs

/-- The `n` bytes from `a` on, in ascending order (R63). -/
def Memory.loadBytes (m : Memory) (a n : Nat) : List Byte := (List.range n).map fun k => m.load (a + k)

/-- Addresses rise strictly. -/
def Memory.rising : Memory → Bool
  | [] => true
  | [_] => true
  | (a, _) :: (b, y) :: m => decide (a < b) && Memory.rising ((b, y) :: m)

/-- The canonical form of memory: addresses rise strictly, each lies in [0, 4096) (R50), and no entry holds the
construction value of its address. So equal memories are equal lists. -/
def Memory.wf (m : Memory) : Bool :=
  m.rising && m.all fun c => decide (c.1 < Config.memSize) && (c.2 != resetByte c.1)

/-- Some byte of the `n` at `a` lies outside memory: `addr + n > 4096`, on integers, no wrap (R63, R51). -/
def outOfMemory (a n : Nat) : Bool := decide (Config.memSize < a + n)

/-! ### Registers (spec/10_state.md R20 to R23) -/

/-- `V[x]` (R10, R20). -/
def State.reg (s : State) (x : RegIx) : Byte := s.v[x.toNat]'x.isLt

/-- `V[x] <- b` (R10, R20). -/
def State.setReg (s : State) (x : RegIx) (b : Byte) : State := { s with v := s.v.set x.toNat b x.isLt }

/-- `set_carry(flag)`: "sets VF to 1 or 0 — the single path used by every ALU/draw opcode" (R21). -/
def State.setFlag (s : State) (flag : Bool) : State := s.setReg regF (if flag then 1#8 else 0#8)

/-- Register writes at ascending indices from `k` on, the first byte to `V[k]`; there is no register above VF. -/
def RegFile.writeFrom (v : RegFile) (k : Nat) : List Byte → RegFile
  | [] => v
  | b :: bs => RegFile.writeFrom (if h : k < Config.nregs then v.set k b h else v) (k + 1) bs

/-- `V[k] <- bs[k]` for k = 0 upward, all other registers unchanged (the write set of FX65, R193). -/
def State.setRegs (s : State) (bs : List Byte) : State := { s with v := s.v.writeFrom 0 bs }

/-- `pc <- w` (R22). -/
def State.setPc (s : State) (w : Word) : State := { s with pc := w }

/-- `pc <- u16(pc + 2)`, the next instruction (R101, D20). -/
def State.advance (s : State) : State := s.setPc (s.pc + 2#16)

/-- A conditional skip: `pc <- u16(pc + 4)` if taken, else `pc <- u16(pc + 2)` (R101). -/
def State.skipIf (s : State) (taken : Bool) : State := s.setPc (if taken then s.pc + 4#16 else s.pc + 2#16)

/-- `I <- w` (R23). -/
def State.setI (s : State) (w : Word) : State := { s with i := w }

/-- `MEM` replaced. -/
def State.setMem (s : State) (m : Memory) : State := { s with mem := m }

/-! ### Timers, keys (spec/43_keypad_timers.md) -/

/-- `DT <- b` (R177). -/
def State.setDt (s : State) (b : Byte) : State := { s with dt := b }

/-- `ST <- b` (R178). -/
def State.setSt (s : State) (b : Byte) : State := { s with st := b }

/-- One timer counts down by 1, floored at 0 (R179). -/
def countDown (t : Byte) : Byte := if t = 0#8 then 0#8 else t - 1#8

/-- `KEY[k] = 1` (R28). -/
def State.keyDown (s : State) (k : Nat) : Bool := s.keys.getLsbD k

/-- The lowest-indexed key that is down, if one is (R174). -/
def State.lowestKeyDown (s : State) : Option Nat := (List.range Config.nkeys).find? s.keyDown

/-! ### Stack (R25) -/

/-- `Push(a)`: none where it raises StackOverflow, "if depth would exceed 16". -/
def State.push (s : State) (a : Word) : Option State :=
  if h : s.sp.val < Config.stackDepth then
    some { s with stk := s.stk.set s.sp.val a h, sp := ⟨s.sp.val + 1, Nat.succ_lt_succ h⟩ }
  else none

/-- `Pop()`: the popped address and the state with the depth decreased; none where it raises StackUnderflow, "if
empty". -/
def State.pop (s : State) : Option (Word × State) :=
  if h : 0 < s.sp.val then
    have hk : s.sp.val - 1 < Config.stackDepth := by have := s.sp.isLt; omega
    some (s.stk[s.sp.val - 1], { s with sp := ⟨s.sp.val - 1, Nat.lt_succ_of_lt hk⟩ })
  else none

/-! ### Display (spec/42_display.md R150 to R152) -/

/-- `FB[y][x]` (R27). -/
def Framebuffer.pixel (fb : Framebuffer) (y : Fin Config.dispH) (x : Fin Config.dispW) : Bool := fb[y][x]

/-- `FB[y][x] <- b`. -/
def Framebuffer.setPixel (fb : Framebuffer) (y : Fin Config.dispH) (x : Fin Config.dispW) (b : Bool) : Framebuffer :=
  fb.set y ((fb[y]).set x b)

/-- Every pixel 0 (R153). -/
def Framebuffer.clear : Framebuffer := Vector.replicate Config.dispH (Vector.replicate Config.dispW false)

/-- The sprite bit of column `c` in a row byte: bit `7 - c`, "most-significant-bit first" (R151). -/
def spriteBit (b : Byte) (c : Nat) : Bool := b.getLsbD (7 - c)

/-- One sprite pixel at screen column `px mod 64` and row `py mod 32`: collision is tested before the XOR (R152). -/
def drawPixel (acc : Framebuffer × Bool) (px py : Nat) (bit : Bool) : Framebuffer × Bool :=
  let x := Fin.ofNat Config.dispW px
  let y := Fin.ofNat Config.dispH py
  let old := acc.1.pixel y x
  (acc.1.setPixel y x (old ^^ bit), acc.2 || (bit && old))

/-- One sprite row: columns 0 to 7 (R152). -/
def drawRow (acc : Framebuffer × Bool) (px py : Nat) (b : Byte) : Framebuffer × Bool :=
  (List.range 8).foldl (fun acc c => drawPixel acc (px + c) py (spriteBit b c)) acc

/-- The sprite's rows downward (R152). -/
def drawRows : Framebuffer × Bool → Nat → Nat → List Byte → Framebuffer × Bool
  | acc, _, _, [] => acc
  | acc, px, py, b :: bs => drawRows (drawRow acc px py b) px (py + 1) bs

/-- `DrawSprite(x, y, height, b)` on the framebuffer: the new pixels and the collision flag (R152). The origin is
`(x mod 64, y mod 32)` and every pixel wraps (D15). -/
def drawSprite (fb : Framebuffer) (x y : Byte) (rows : List Byte) : Framebuffer × Bool :=
  drawRows (fb, false) (x.toNat % Config.dispW) (y.toNat % Config.dispH) rows

/-- The framebuffer replaced and `DIRTY <- 1`: what 00E0 and DXYN do to the display, "marks dirty unconditionally"
(R29, R152, R153). -/
def State.setDisplay (s : State) (fb : Framebuffer) : State := { s with fb := fb, dirty := true }

/-! ### Free values (log entry 2) -/

/-- The next `n` free bytes. -/
def State.freeBytes (s : State) (n : Nat) : List Byte := (List.range n).map fun k => Config.freeByte (s.freeIx + k)

/-- The bytes that exist among the `n` at I hold unspecified values: the target bytes after a faulting FX33 or FX55
(R203, D4). -/
def State.havocBytes (s : State) (n : Nat) : State :=
  let k := min n (Config.memSize - s.i.toNat)
  { s with mem := s.mem.storeBytes s.i.toNat (s.freeBytes k), freeIx := s.freeIx + k }

/-- V0 to VX hold unspecified values: the target registers after a faulting FX65 (R203, D4). -/
def State.havocRegs (s : State) (x : RegIx) : State :=
  { s with v := s.v.writeFrom 0 (s.freeBytes (x.toNat + 1)), freeIx := s.freeIx + (x.toNat + 1) }

/-- I holds an unspecified value: after a faulting FX55 or FX65 (R203, D4). -/
def State.havocI (s : State) : State := { s with i := Config.freeWord s.freeIx, freeIx := s.freeIx + 1 }

/-! ### Taking a fault (spec/60_exceptions.md R203) -/

/-- `raise <Fault>(info)`: `HALTED <- 1; CAUSE <- the code; INFO <- info`; `pc` keeps the address of the faulting
instruction; "control goes nowhere" (R203). Every fault of the machine is taken by this one operation. -/
def State.raise (s : State) (c : Cause) (info : Word) : State := { s with halted := true, cause := c, info := info }

/-- The number of a fault code (R200). -/
def Cause.code : Cause → BitVec 3
  | .none => 0#3
  | .decodeError => 1#3
  | .fetch => 2#3
  | .memory => 3#3
  | .stackOverflow => 4#3
  | .stackUnderflow => 5#3
  | .keyIndex => 6#3
  | .resourceError => 7#3

end Sys2Proof.Machine
end

