-- ==== Sys2Proof/Machine/Flags.lean ====
section
/-! DEFINITION. Every flag the spec computes into VF (spec/10_state.md R21; spec/41_load_alu.md R120, R128 to R132), each
on the unbounded integers the spec evaluates on (R10). The collision flag is computed by `drawSprite` (Ops.lean). -/

namespace Sys2Proof.Machine

/-- Carry-out of an 8-bit addition: `1 iff a + b > 255` (R120, R128). -/
def carryOut (a b : Byte) : Bool := decide (255 < a.toNat + b.toNat)

/-- Borrow of an 8-bit subtraction `a - b`: `1 iff a < b` (R120, R129, R131, D6). -/
def borrowOut (a b : Byte) : Bool := decide (a.toNat < b.toNat)

/-- The flag of 8XY6: bit 0 of the old VX (R130). -/
def shrFlag (vx : Byte) : Bool := vx.getLsbD 0

/-- The flag of 8XYE under the parameter `SHL_FLAG` (R5, R132, U1). -/
def shlFlagOf (f : ShlFlag) (vx : Byte) : Bool :=
  match f with
  | .msbOfVx => vx.getLsbD 7
  | .alwaysZero => false

/-- A test that a condition holds of the two operands of a skip: equality of all 8 bits (R105 to R108). -/
def sameByte (a b : Byte) : Bool := a == b

end Sys2Proof.Machine
end

