-- ==== Sys2Proof/Syntax.lean ====
section
/-! DEFINITION. The 32 instructions of spec/30_encoding.md R74, one constructor per row of
spec/opcode_table.json. "The instruction's name in this spec is its pattern" (R78), so constructor `op8XY4` is
row 8XY4. Every operand field has exactly its width (R72), so every term is a legal instruction (R77). -/

namespace Sys2Proof

inductive Instr where
  /-- 00E0 (CLS): clear the display, R153. -/
  | op00E0
  /-- 00EE (RET): return from a subroutine, R102. -/
  | op00EE
  /-- 1NNN (JP nnn): jump, R103. -/
  | op1NNN (nnn : Addr12)
  /-- 2NNN (CALL nnn): call, R104. -/
  | op2NNN (nnn : Addr12)
  /-- 3XNN (SE Vx, nn): skip if VX = NN, R105. -/
  | op3XNN (x : RegIx) (nn : Byte)
  /-- 4XNN (SNE Vx, nn): skip if VX != NN, R106. -/
  | op4XNN (x : RegIx) (nn : Byte)
  /-- 5XY0 (SE Vx, Vy): skip if VX = VY, R107. -/
  | op5XY0 (x y : RegIx)
  /-- 6XNN (LD Vx, nn): VX = NN, R122. -/
  | op6XNN (x : RegIx) (nn : Byte)
  /-- 7XNN (ADD Vx, nn): VX = VX + NN, no flag, R123. -/
  | op7XNN (x : RegIx) (nn : Byte)
  /-- 8XY0 (LD Vx, Vy): VX = VY, R124. -/
  | op8XY0 (x y : RegIx)
  /-- 8XY1 (OR Vx, Vy), R125. -/
  | op8XY1 (x y : RegIx)
  /-- 8XY2 (AND Vx, Vy), R126. -/
  | op8XY2 (x y : RegIx)
  /-- 8XY3 (XOR Vx, Vy), R127. -/
  | op8XY3 (x y : RegIx)
  /-- 8XY4 (ADD Vx, Vy): VX = VX + VY, VF = carry, R128. -/
  | op8XY4 (x y : RegIx)
  /-- 8XY5 (SUB Vx, Vy): VX = VX - VY, VF = borrow, R129. -/
  | op8XY5 (x y : RegIx)
  /-- 8XY6 (SHR Vx, Vy): VF = VX bit 0, VX = VY >> 1, R130. -/
  | op8XY6 (x y : RegIx)
  /-- 8XY7 (SUBN Vx, Vy): VX = VY - VX, VF = borrow, R131. -/
  | op8XY7 (x y : RegIx)
  /-- 8XYE (SHL Vx, Vy): VF = VX bit 7, VX = VY << 1, R132. -/
  | op8XYE (x y : RegIx)
  /-- 9XY0 (SNE Vx, Vy): skip if VX != VY, R108. -/
  | op9XY0 (x y : RegIx)
  /-- ANNN (LD I, nnn): I = NNN, R133. -/
  | opANNN (nnn : Addr12)
  /-- DXYN (DRW Vx, Vy, n): draw a sprite, VF = collision, R154. -/
  | opDXYN (x y : RegIx) (n : Height)
  /-- EX9E (SKP Vx): skip if key VX is down, R172. -/
  | opEX9E (x : RegIx)
  /-- EXA1 (SKNP Vx): skip if key VX is not down, R173. -/
  | opEXA1 (x : RegIx)
  /-- FX07 (LD Vx, DT): VX = delay timer, R176. -/
  | opFX07 (x : RegIx)
  /-- FX0A (LD Vx, K): wait for a key, R174. -/
  | opFX0A (x : RegIx)
  /-- FX15 (LD DT, Vx): delay timer = VX, R177. -/
  | opFX15 (x : RegIx)
  /-- FX18 (LD ST, Vx): sound timer = VX, R178. -/
  | opFX18 (x : RegIx)
  /-- FX1E (ADD I, Vx): I = I + VX, R134. -/
  | opFX1E (x : RegIx)
  /-- FX29 (LD F, Vx): I = font address of VX, R135. -/
  | opFX29 (x : RegIx)
  /-- FX33 (LD B, Vx): BCD of VX to memory, R191. -/
  | opFX33 (x : RegIx)
  /-- FX55 (LD [I], Vx): store V0..VX, R192. -/
  | opFX55 (x : RegIx)
  /-- FX65 (LD Vx, [I]): load V0..VX, R193. -/
  | opFX65 (x : RegIx)
  deriving DecidableEq, Repr

end Sys2Proof
end

