-- ==== Sys2Proof/WellFormed.lean ====
section
/-! DEFINITION. When an instruction is well formed: every operand lies in the range R72 gives its field. The
checks are on numbers, and the types of `Instr` make each of them hold of every term: "every combination of operand
values in a legal word is legal" (R77; U3: "refuse at the type level"). -/

namespace Sys2Proof

/-- A register index names a register: 0 to 15 (R20, R77). -/
def registerInRange (x : Nat) : Bool := decide (x < Config.nregs)

/-- An `nn` immediate is an 8-bit value (R72). -/
def immediateInRange (nn : Nat) : Bool := decide (nn < 256)

/-- An `nnn` address is a 12-bit value, "range 0x000 to 0xFFF" (R72). -/
def addressInRange (nnn : Nat) : Bool := decide (nnn < Config.memSize)

/-- A sprite height is 0 to 15 (R72). -/
def heightInRange (n : Nat) : Bool := decide (n < 16)

/-- Every operand of the instruction lies in its field's range (R72, R77). -/
def Instr.wellFormed : Instr → Bool
  | .op00E0 => true
  | .op00EE => true
  | .op1NNN nnn => addressInRange nnn.toNat
  | .op2NNN nnn => addressInRange nnn.toNat
  | .op3XNN x nn => registerInRange x.toNat && immediateInRange nn.toNat
  | .op4XNN x nn => registerInRange x.toNat && immediateInRange nn.toNat
  | .op5XY0 x y => registerInRange x.toNat && registerInRange y.toNat
  | .op6XNN x nn => registerInRange x.toNat && immediateInRange nn.toNat
  | .op7XNN x nn => registerInRange x.toNat && immediateInRange nn.toNat
  | .op8XY0 x y => registerInRange x.toNat && registerInRange y.toNat
  | .op8XY1 x y => registerInRange x.toNat && registerInRange y.toNat
  | .op8XY2 x y => registerInRange x.toNat && registerInRange y.toNat
  | .op8XY3 x y => registerInRange x.toNat && registerInRange y.toNat
  | .op8XY4 x y => registerInRange x.toNat && registerInRange y.toNat
  | .op8XY5 x y => registerInRange x.toNat && registerInRange y.toNat
  | .op8XY6 x y => registerInRange x.toNat && registerInRange y.toNat
  | .op8XY7 x y => registerInRange x.toNat && registerInRange y.toNat
  | .op8XYE x y => registerInRange x.toNat && registerInRange y.toNat
  | .op9XY0 x y => registerInRange x.toNat && registerInRange y.toNat
  | .opANNN nnn => addressInRange nnn.toNat
  | .opDXYN x y n => registerInRange x.toNat && registerInRange y.toNat && heightInRange n.toNat
  | .opEX9E x => registerInRange x.toNat
  | .opEXA1 x => registerInRange x.toNat
  | .opFX07 x => registerInRange x.toNat
  | .opFX0A x => registerInRange x.toNat
  | .opFX15 x => registerInRange x.toNat
  | .opFX18 x => registerInRange x.toNat
  | .opFX1E x => registerInRange x.toNat
  | .opFX29 x => registerInRange x.toNat
  | .opFX33 x => registerInRange x.toNat
  | .opFX55 x => registerInRange x.toNat
  | .opFX65 x => registerInRange x.toNat

end Sys2Proof
end

