-- ==== Sys2Proof/Decode.lean ====
section
/-! DEFINITION. The decoder, total on every 16-bit word and on every list of bytes (spec/30_encoding.md R70 to R77),
then the encoder, the opcode table of R74 as data, and the host's `decodeTableWord`. Decode is exact on every fixed
digit of a pattern (R73, 90_conflicts.md C1): a word that matches no row decodes to no instruction. -/

namespace Sys2Proof

/-- `top = op[15:12]` (R11). -/
def topOf (op : Word) : BitVec 4 := op.extractLsb' 12 4
/-- `x = op[11:8]` (R11). -/
def xOf (op : Word) : RegIx := op.extractLsb' 8 4
/-- `y = op[7:4]` (R11). -/
def yOf (op : Word) : RegIx := op.extractLsb' 4 4
/-- `n = op[3:0]` (R11). -/
def nOf (op : Word) : BitVec 4 := op.extractLsb' 0 4
/-- `nn = op[7:0]` (R11). -/
def nnOf (op : Word) : Byte := op.extractLsb' 0 8
/-- `nnn = op[11:0]` (R11). -/
def nnnOf (op : Word) : Addr12 := op.extractLsb' 0 12

/-- Group 0x0, matched on all 16 bits: only 00E0 and 00EE are instructions (R73, R75). -/
def decodeGroup0 (op : Word) : Option Instr :=
  if op = 0x00E0#16 then some .op00E0
  else if op = 0x00EE#16 then some .op00EE
  else none

/-- Group 0x8, told apart by the low nibble: 0 to 7 and E (R73, R75). -/
def decodeGroup8 (x y : RegIx) (fn : BitVec 4) : Option Instr :=
  if fn = 0x0#4 then some (.op8XY0 x y)
  else if fn = 0x1#4 then some (.op8XY1 x y)
  else if fn = 0x2#4 then some (.op8XY2 x y)
  else if fn = 0x3#4 then some (.op8XY3 x y)
  else if fn = 0x4#4 then some (.op8XY4 x y)
  else if fn = 0x5#4 then some (.op8XY5 x y)
  else if fn = 0x6#4 then some (.op8XY6 x y)
  else if fn = 0x7#4 then some (.op8XY7 x y)
  else if fn = 0xE#4 then some (.op8XYE x y)
  else none

/-- Group 0xE, told apart by the whole low byte (R73, R75). -/
def decodeGroupE (x : RegIx) (fn : Byte) : Option Instr :=
  if fn = 0x9E#8 then some (.opEX9E x)
  else if fn = 0xA1#8 then some (.opEXA1 x)
  else none

/-- Group 0xF, told apart by the whole low byte (R73, R75). -/
def decodeGroupF (x : RegIx) (fn : Byte) : Option Instr :=
  if fn = 0x07#8 then some (.opFX07 x)
  else if fn = 0x0A#8 then some (.opFX0A x)
  else if fn = 0x15#8 then some (.opFX15 x)
  else if fn = 0x18#8 then some (.opFX18 x)
  else if fn = 0x1E#8 then some (.opFX1E x)
  else if fn = 0x29#8 then some (.opFX29 x)
  else if fn = 0x33#8 then some (.opFX33 x)
  else if fn = 0x55#8 then some (.opFX55 x)
  else if fn = 0x65#8 then some (.opFX65 x)
  else none

/-- "Decode is a pure function of the 16 fetched bits" (R73). Groups 0xB and 0xC hold no instruction (R75, D21). -/
def decode (op : Word) : Option Instr :=
  if topOf op = 0x0#4 then decodeGroup0 op
  else if topOf op = 0x1#4 then some (.op1NNN (nnnOf op))
  else if topOf op = 0x2#4 then some (.op2NNN (nnnOf op))
  else if topOf op = 0x3#4 then some (.op3XNN (xOf op) (nnOf op))
  else if topOf op = 0x4#4 then some (.op4XNN (xOf op) (nnOf op))
  else if topOf op = 0x5#4 then (if nOf op = 0x0#4 then some (.op5XY0 (xOf op) (yOf op)) else none)
  else if topOf op = 0x6#4 then some (.op6XNN (xOf op) (nnOf op))
  else if topOf op = 0x7#4 then some (.op7XNN (xOf op) (nnOf op))
  else if topOf op = 0x8#4 then decodeGroup8 (xOf op) (yOf op) (nOf op)
  else if topOf op = 0x9#4 then (if nOf op = 0x0#4 then some (.op9XY0 (xOf op) (yOf op)) else none)
  else if topOf op = 0xA#4 then some (.opANNN (nnnOf op))
  else if topOf op = 0xD#4 then some (.opDXYN (xOf op) (yOf op) (nOf op))
  else if topOf op = 0xE#4 then decodeGroupE (xOf op) (nnOf op)
  else if topOf op = 0xF#4 then decodeGroupF (xOf op) (nnOf op)
  else none

/-- The opcode two fetched bytes make, big-endian: the byte at the lower address is the high byte (R52, R54). -/
def opcodeOf (hi lo : Byte) : Word := hi ++ lo

/-- Decoding a sequence of bytes: every instruction is exactly two bytes (R70). Answers the instruction and the bytes
after it, and none for an illegal word or for fewer than two bytes. -/
def decodeBytes : List Byte → Option (Instr × List Byte)
  | hi :: lo :: rest => (decode (opcodeOf hi lo)).map fun i => (i, rest)
  | _ => none

/-! The encoder, from the formats of R71. -/

/-- Format NNN: `{top, nnn}` (R71). -/
def formatNNN (top : BitVec 4) (nnn : Addr12) : Word := top ++ nnn
/-- Format XNN: `{top, x, nn}` (R71). -/
def formatXNN (top : BitVec 4) (x : RegIx) (nn : Byte) : Word := top ++ x ++ nn
/-- Formats XY and XYN: `{top, x, y, n}`, `n` the function nibble or the sprite height (R71). -/
def formatXYN (top : BitVec 4) (x y : RegIx) (n : BitVec 4) : Word := top ++ x ++ y ++ n
/-- Format X: `{top, x, fn8}` (R71). -/
def formatX (top : BitVec 4) (x : RegIx) (fn : Byte) : Word := top ++ x ++ fn

/-- The word of an instruction (R71, R74). -/
def encode : Instr → Word
  | .op00E0 => 0x00E0#16
  | .op00EE => 0x00EE#16
  | .op1NNN nnn => formatNNN 0x1#4 nnn
  | .op2NNN nnn => formatNNN 0x2#4 nnn
  | .op3XNN x nn => formatXNN 0x3#4 x nn
  | .op4XNN x nn => formatXNN 0x4#4 x nn
  | .op5XY0 x y => formatXYN 0x5#4 x y 0x0#4
  | .op6XNN x nn => formatXNN 0x6#4 x nn
  | .op7XNN x nn => formatXNN 0x7#4 x nn
  | .op8XY0 x y => formatXYN 0x8#4 x y 0x0#4
  | .op8XY1 x y => formatXYN 0x8#4 x y 0x1#4
  | .op8XY2 x y => formatXYN 0x8#4 x y 0x2#4
  | .op8XY3 x y => formatXYN 0x8#4 x y 0x3#4
  | .op8XY4 x y => formatXYN 0x8#4 x y 0x4#4
  | .op8XY5 x y => formatXYN 0x8#4 x y 0x5#4
  | .op8XY6 x y => formatXYN 0x8#4 x y 0x6#4
  | .op8XY7 x y => formatXYN 0x8#4 x y 0x7#4
  | .op8XYE x y => formatXYN 0x8#4 x y 0xE#4
  | .op9XY0 x y => formatXYN 0x9#4 x y 0x0#4
  | .opANNN nnn => formatNNN 0xA#4 nnn
  | .opDXYN x y n => formatXYN 0xD#4 x y n
  | .opEX9E x => formatX 0xE#4 x 0x9E#8
  | .opEXA1 x => formatX 0xE#4 x 0xA1#8
  | .opFX07 x => formatX 0xF#4 x 0x07#8
  | .opFX0A x => formatX 0xF#4 x 0x0A#8
  | .opFX15 x => formatX 0xF#4 x 0x15#8
  | .opFX18 x => formatX 0xF#4 x 0x18#8
  | .opFX1E x => formatX 0xF#4 x 0x1E#8
  | .opFX29 x => formatX 0xF#4 x 0x29#8
  | .opFX33 x => formatX 0xF#4 x 0x33#8
  | .opFX55 x => formatX 0xF#4 x 0x55#8
  | .opFX65 x => formatX 0xF#4 x 0x65#8

/-- The high and low byte of a word (R9 `op[15:8]`, `op[7:0]`). -/
def highByte (op : Word) : Byte := op.extractLsb' 8 8
def lowByte (op : Word) : Byte := op.extractLsb' 0 8

/-- The two bytes of an instruction as memory holds them, the high byte first (R54, R71). -/
def encodeBytes (i : Instr) : List Byte := [highByte (encode i), lowByte (encode i)]

/-! The opcode table of R74 as data. -/

/-- One row of R74: a word belongs to it when `op AND mask = pattern` (R73). -/
structure OpcodeRow where
  mnemonic : String
  mask : Word
  pattern : Word
  deriving DecidableEq, Repr

/-- "The complete opcode table: 32 instructions" (R74). -/
def opcodeTable : List OpcodeRow :=
  [ ⟨"00E0", 0xFFFF#16, 0x00E0#16⟩, ⟨"00EE", 0xFFFF#16, 0x00EE#16⟩,
    ⟨"1NNN", 0xF000#16, 0x1000#16⟩, ⟨"2NNN", 0xF000#16, 0x2000#16⟩,
    ⟨"3XNN", 0xF000#16, 0x3000#16⟩, ⟨"4XNN", 0xF000#16, 0x4000#16⟩,
    ⟨"5XY0", 0xF00F#16, 0x5000#16⟩, ⟨"6XNN", 0xF000#16, 0x6000#16⟩,
    ⟨"7XNN", 0xF000#16, 0x7000#16⟩, ⟨"8XY0", 0xF00F#16, 0x8000#16⟩,
    ⟨"8XY1", 0xF00F#16, 0x8001#16⟩, ⟨"8XY2", 0xF00F#16, 0x8002#16⟩,
    ⟨"8XY3", 0xF00F#16, 0x8003#16⟩, ⟨"8XY4", 0xF00F#16, 0x8004#16⟩,
    ⟨"8XY5", 0xF00F#16, 0x8005#16⟩, ⟨"8XY6", 0xF00F#16, 0x8006#16⟩ ] ++
  [ ⟨"8XY7", 0xF00F#16, 0x8007#16⟩, ⟨"8XYE", 0xF00F#16, 0x800E#16⟩,
    ⟨"9XY0", 0xF00F#16, 0x9000#16⟩, ⟨"ANNN", 0xF000#16, 0xA000#16⟩,
    ⟨"DXYN", 0xF000#16, 0xD000#16⟩, ⟨"EX9E", 0xF0FF#16, 0xE09E#16⟩,
    ⟨"EXA1", 0xF0FF#16, 0xE0A1#16⟩, ⟨"FX07", 0xF0FF#16, 0xF007#16⟩,
    ⟨"FX0A", 0xF0FF#16, 0xF00A#16⟩, ⟨"FX15", 0xF0FF#16, 0xF015#16⟩,
    ⟨"FX18", 0xF0FF#16, 0xF018#16⟩, ⟨"FX1E", 0xF0FF#16, 0xF01E#16⟩,
    ⟨"FX29", 0xF0FF#16, 0xF029#16⟩, ⟨"FX33", 0xF0FF#16, 0xF033#16⟩,
    ⟨"FX55", 0xF0FF#16, 0xF055#16⟩, ⟨"FX65", 0xF0FF#16, 0xF065#16⟩ ]

/-- The pattern that names an instruction's row (R74, R78). -/
def Instr.mnemonic : Instr → String
  | .op00E0 => "00E0"
  | .op00EE => "00EE"
  | .op1NNN _ => "1NNN"
  | .op2NNN _ => "2NNN"
  | .op3XNN _ _ => "3XNN"
  | .op4XNN _ _ => "4XNN"
  | .op5XY0 _ _ => "5XY0"
  | .op6XNN _ _ => "6XNN"
  | .op7XNN _ _ => "7XNN"
  | .op8XY0 _ _ => "8XY0"
  | .op8XY1 _ _ => "8XY1"
  | .op8XY2 _ _ => "8XY2"
  | .op8XY3 _ _ => "8XY3"
  | .op8XY4 _ _ => "8XY4"
  | .op8XY5 _ _ => "8XY5"
  | .op8XY6 _ _ => "8XY6"
  | .op8XY7 _ _ => "8XY7"
  | .op8XYE _ _ => "8XYE"
  | .op9XY0 _ _ => "9XY0"
  | .opANNN _ => "ANNN"
  | .opDXYN _ _ _ => "DXYN"
  | .opEX9E _ => "EX9E"
  | .opEXA1 _ => "EXA1"
  | .opFX07 _ => "FX07"
  | .opFX0A _ => "FX0A"
  | .opFX15 _ => "FX15"
  | .opFX18 _ => "FX18"
  | .opFX1E _ => "FX1E"
  | .opFX29 _ => "FX29"
  | .opFX33 _ => "FX33"
  | .opFX55 _ => "FX55"
  | .opFX65 _ => "FX65"

/-- The word of an instruction whose bits are `w`, of which the table gives the low `nbits`; bits above are 0. -/
def tableWord (nbits w : Nat) : Word := BitVec.ofNat 16 (w % 2 ^ nbits)

/-- The instruction the decoder reads from a table word laid out as the hardware stores it, the high byte first (R54). -/
def decodeTableWord (nbits w : Nat) : Option Instr :=
  (decodeBytes [highByte (tableWord nbits w), lowByte (tableWord nbits w)]).map Prod.fst

end Sys2Proof
end

