-- ==== Sys2Proof/Machine/Operands.lean ====
section
/-! DEFINITION. The operand forms: how a field, a register or I becomes the value an instruction works on
(spec/30_encoding.md R72; spec/44_memory_ops.md R190; spec/41_load_alu.md R134, R135). -/

namespace Sys2Proof.Machine

/-- `zext_16(nnn)`: a 12-bit absolute address as PC or I takes it (R72, R103, R133). -/
def absAddress (nnn : Addr12) : Word := nnn.setWidth 16

/-- `zext_16(V[x])`: a register's value widened for index arithmetic or for INFO (R134, R200). -/
def zext16 (b : Byte) : Word := b.setWidth 16

/-- The effective address of byte 0 of an access through I, an integer "not reduced modulo anything" (R190). -/
def State.dataAddress (s : State) : Nat := s.i.toNat

/-- The first byte address of 4096 or more that an access of ascending bytes from I reaches, when it reaches one
(R200, C6): I itself, or 0x1000. -/
def State.firstBadAddress (s : State) : Word := if Config.memSize ≤ s.i.toNat then s.i else 0x1000#16

/-- `FONT_BASE + 5 * VX`, the whole 8 bits of VX used (R135, D10). -/
def glyphAddress (vx : Byte) : Word := BitVec.ofNat 16 (fontBase + glyphHeight * vx.toNat)

/-- `u8(v)`: an integer narrowed to a byte (R9, R10). -/
def u8 (v : Nat) : Byte := BitVec.ofNat 8 v

/-- Decimal hundreds, tens, units of VX (R191). -/
def decimalDigits (vx : Byte) : List Byte := [u8 (vx.toNat / 100), u8 (vx.toNat / 10 % 10), u8 (vx.toNat % 10)]

/-- The values of V0 to VX, in ascending order (R192). -/
def State.regsUpTo (s : State) (x : RegIx) : List Byte := s.v.toList.take (x.toNat + 1)

/-- Instruction fetch at PC: the big-endian word there, or none where `pc + 1 >= 4096` on integers (R52, R54). -/
def State.fetchWord (s : State) : Option Word :=
  if outOfMemory s.pc.toNat 2 then none
  else some (opcodeOf (s.mem.load s.pc.toNat) (s.mem.load (s.pc.toNat + 1)))

end Sys2Proof.Machine
end

