-- ==== Sys2Proof/Machine/Meaning.lean ====
section
/-! DEFINITION. The type of an instruction's meaning. During a meaning `pc` is the address of the instruction itself; the
meaning's last act is to set it (spec/10_state.md R22; spec/40_control_flow.md R101). -/

namespace Sys2Proof.Machine

/-- What a meaning answers. -/
abbrev Result := Host.Outcome State Fault Refusal

end Sys2Proof.Machine
end

