-- ==== Sys2Proof/Machine/Alu.lean ====
section
/-! DEFINITION. Loads and ALU: 6XNN 7XNN 8XY0 to 8XY7 8XYE (spec/41_load_alu.md R120 to R132). Operands are read first;
then 8XY4, 8XY5, 8XY7 write the result and after it the flag, 8XY6 and 8XYE the flag and after it the result (R121,
D5), which decides what VF holds when X = 0xF. -/

namespace Sys2Proof.Machine

/-- Result first, flag second, then the next instruction (R121: 8XY4, 8XY5, 8XY7). -/
def State.resultThenFlag (s : State) (x : RegIx) (result : Byte) (flag : Bool) : State :=
  ((s.setReg x result).setFlag flag).advance

/-- Flag first, result second, then the next instruction (R121: 8XY6, 8XYE). -/
def State.flagThenResult (s : State) (x : RegIx) (result : Byte) (flag : Bool) : State :=
  ((s.setFlag flag).setReg x result).advance

/-- 6XNN, R122: "VX = NN." -/
def exec6XNN (x : RegIx) (nn : Byte) (s : State) : Result := .next (s.setReg x nn).advance

/-- 7XNN, R123: "VX = VX + NN, wrapping; no flag side effect." -/
def exec7XNN (x : RegIx) (nn : Byte) (s : State) : Result := .next (s.setReg x (s.reg x + nn)).advance

/-- 8XY0, R124: "VX = VY." -/
def exec8XY0 (x y : RegIx) (s : State) : Result := .next (s.setReg x (s.reg y)).advance

/-- 8XY1, R125: bitwise OR, VF unchanged. -/
def exec8XY1 (x y : RegIx) (s : State) : Result := .next (s.setReg x (s.reg x ||| s.reg y)).advance

/-- 8XY2, R126: bitwise AND, VF unchanged. -/
def exec8XY2 (x y : RegIx) (s : State) : Result := .next (s.setReg x (s.reg x &&& s.reg y)).advance

/-- 8XY3, R127: bitwise XOR, VF unchanged. -/
def exec8XY3 (x y : RegIx) (s : State) : Result := .next (s.setReg x (s.reg x ^^^ s.reg y)).advance

/-- 8XY4, R128: "VX = VX + VY wrapping; VF = 1 iff the addition overflowed 8 bits." -/
def exec8XY4 (x y : RegIx) (s : State) : Result :=
  .next (s.resultThenFlag x (s.reg x + s.reg y) (carryOut (s.reg x) (s.reg y)))

/-- 8XY5, R129: "VX = VX − VY wrapping; VF = 1 iff the subtraction underflowed (borrow occurred)". -/
def exec8XY5 (x y : RegIx) (s : State) : Result :=
  .next (s.resultThenFlag x (s.reg x - s.reg y) (borrowOut (s.reg x) (s.reg y)))

/-- 8XY6, R130: the flag is bit 0 of VX, "taken from VX not VY"; "VX = VY >> 1". -/
def exec8XY6 (x y : RegIx) (s : State) : Result :=
  .next (s.flagThenResult x (s.reg y >>> 1) (shrFlag (s.reg x)))

/-- 8XY7, R131: "VX = VY − VX wrapping; VF = 1 iff underflow occurred." -/
def exec8XY7 (x y : RegIx) (s : State) : Result :=
  .next (s.resultThenFlag x (s.reg y - s.reg x) (borrowOut (s.reg y) (s.reg x)))

/-- 8XYE, R132: "VF = most-significant bit of VX (pre-shift); VX = VY << 1". -/
def exec8XYE (x y : RegIx) (s : State) : Result :=
  .next (s.flagThenResult x (s.reg y <<< 1) (shlFlagOf shlFlag (s.reg x)))

end Sys2Proof.Machine
end

