-- ==== Sys2Proof/Machine/Block.lean ====
section
/-! DEFINITION. Loads and stores through I: FX33 FX55 FX65 (spec/44_memory_ops.md R190 to R193). When one of the bytes
lies outside memory the instruction raises BoundsError.Memory with the first address outside as INFO (R200), and its
write set is UNSPECIFIED (R203, D4): free values (log entry 2). -/

namespace Sys2Proof.Machine

/-- FX33, R191: the decimal digits of VX to I, I+1, I+2; I unchanged. -/
def execFX33 (x : RegIx) (s : State) : Result :=
  if outOfMemory s.dataAddress 3 then .next ((s.havocBytes 3).raise .memory s.firstBadAddress)
  else .next (s.setMem (s.mem.storeBytes s.dataAddress (decimalDigits (s.reg x)))).advance

/-- FX55, R192: V0 to VX to memory at I, ascending; "I ends at I + X + 1". -/
def execFX55 (x : RegIx) (s : State) : Result :=
  let n := x.toNat + 1
  if outOfMemory s.dataAddress n then .next ((s.havocBytes n).havocI.raise .memory s.firstBadAddress)
  else
    .next ((s.setMem (s.mem.storeBytes s.dataAddress (s.regsUpTo x))).setI (s.i + BitVec.ofNat 16 n)).advance

/-- FX65, R193: V0 to VX from memory at I, "I incremented identically". -/
def execFX65 (x : RegIx) (s : State) : Result :=
  let n := x.toNat + 1
  if outOfMemory s.dataAddress n then .next ((s.havocRegs x).havocI.raise .memory s.firstBadAddress)
  else
    .next ((s.setRegs (s.mem.loadBytes s.dataAddress n)).setI (s.i + BitVec.ofNat 16 n)).advance

end Sys2Proof.Machine
end

