-- ==== Sys2Proof/Machine/Display.lean ====
section
/-! DEFINITION. The display: 00E0 DXYN (spec/42_display.md R150 to R155). -/

namespace Sys2Proof.Machine

/-- 00E0, R153: "sets every pixel to 0; marks dirty." -/
def exec00E0 (s : State) : Result := .next (s.setDisplay Framebuffer.clear).advance

/-- DXYN, R154: the sprite bytes are read before anything is drawn; a sprite not wholly inside memory raises
BoundsError.Memory(I) with nothing changed (R63, D16); otherwise the sprite is drawn and VF is the collision flag. -/
def execDXYN (x y : RegIx) (n : Height) (s : State) : Result :=
  if outOfMemory s.dataAddress n.toNat then .next (s.raise .memory s.i)
  else
    let drawn := drawSprite s.fb (s.reg x) (s.reg y) (s.mem.loadBytes s.dataAddress n.toNat)
    .next ((s.setDisplay drawn.1).setFlag drawn.2).advance

end Sys2Proof.Machine
end

