-- ==== Sys2Proof/Machine/Flow.lean ====
section
/-! DEFINITION. Control transfer: 00EE 1NNN 2NNN 3XNN 4XNN 5XY0 9XY0 (spec/40_control_flow.md R102 to R108). -/

namespace Sys2Proof.Machine

/-- 00EE, R102: "PC = stack.pop(); PC += 2." An empty stack raises StackUnderflow with the pc of the 00EE, nothing
else changed (R200, R203). -/
def exec00EE (s : State) : Result :=
  match s.pop with
  | none => .next (s.raise .stackUnderflow s.pc)
  | some (a, s') => .next (s'.setPc (a + 2#16))

/-- 1NNN, R103: "PC = NNN (absolute jump)." -/
def exec1NNN (nnn : Addr12) (s : State) : Result := .next (s.setPc (absAddress nnn))

/-- 2NNN, R104: "stack.push(current PC); PC = NNN." The address pushed is that of the 2NNN itself. A full stack raises
StackOverflow with the pc of the 2NNN, nothing else changed (R200, R203). -/
def exec2NNN (nnn : Addr12) (s : State) : Result :=
  match s.push s.pc with
  | none => .next (s.raise .stackOverflow s.pc)
  | some s' => .next (s'.setPc (absAddress nnn))

/-- 3XNN, R105: skip if VX = NN. -/
def exec3XNN (x : RegIx) (nn : Byte) (s : State) : Result := .next (s.skipIf (sameByte (s.reg x) nn))

/-- 4XNN, R106: skip if VX != NN. -/
def exec4XNN (x : RegIx) (nn : Byte) (s : State) : Result := .next (s.skipIf (!sameByte (s.reg x) nn))

/-- 5XY0, R107: skip if VX = VY. -/
def exec5XY0 (x y : RegIx) (s : State) : Result := .next (s.skipIf (sameByte (s.reg x) (s.reg y)))

/-- 9XY0, R108: skip if VX != VY. -/
def exec9XY0 (x y : RegIx) (s : State) : Result := .next (s.skipIf (!sameByte (s.reg x) (s.reg y)))

end Sys2Proof.Machine
end

