-- ==== Sys2Proof/Machine/Index.lean ====
section
/-! DEFINITION. The index register: ANNN FX1E FX29 (spec/41_load_alu.md R133 to R135). -/

namespace Sys2Proof.Machine

/-- ANNN, R133: "I = NNN." -/
def execANNN (nnn : Addr12) (s : State) : Result := .next (s.setI (absAddress nnn)).advance

/-- FX1E, R134: "I = I + VX (16-bit, no flag)." The sum wraps modulo 65536 (D9). -/
def execFX1E (x : RegIx) (s : State) : Result := .next (s.setI (s.i + zext16 (s.reg x))).advance

/-- FX29, R135: "I = font_base + VX × 5". -/
def execFX29 (x : RegIx) (s : State) : Result := .next (s.setI (glyphAddress (s.reg x))).advance

end Sys2Proof.Machine
end

