-- ==== Sys2Proof/Machine/Keypad.lean ====
section
/-! DEFINITION. The keypad: EX9E EXA1 FX0A (spec/43_keypad_timers.md R170 to R175). -/

namespace Sys2Proof.Machine

/-- A skip on the key whose index is VX. An index above 15 raises BoundsError.KeyIndex with VX as INFO, nothing else
changed (R172, R173, R200, D17). -/
def State.keySkip (s : State) (x : RegIx) (skipWhenDown : Bool) : State :=
  let vx := s.reg x
  if 15 < vx.toNat then s.raise .keyIndex (zext16 vx)
  else s.skipIf (s.keyDown vx.toNat == skipWhenDown)

/-- EX9E, R172: "Skip if key VX is down". -/
def execEX9E (x : RegIx) (s : State) : Result := .next (s.keySkip x true)

/-- EXA1, R173: skip if key VX "is not down". -/
def execEXA1 (x : RegIx) (s : State) : Result := .next (s.keySkip x false)

/-- FX0A, R174: "if any is down, VX = lowest-indexed down key and PC advances; otherwise PC does not advance — the
instruction re-executes identically next cycle". -/
def execFX0A (x : RegIx) (s : State) : Result :=
  match s.lowestKeyDown with
  | some k => .next (s.setReg x (u8 k)).advance
  | none => .next s

end Sys2Proof.Machine
end

