-- ==== Sys2Proof/Machine/Timers.lean ====
section
/-! DEFINITION. The timers: FX07 FX15 FX18 (spec/43_keypad_timers.md R176 to R178). -/

namespace Sys2Proof.Machine

/-- FX07, R176: "VX = delay_timer." -/
def execFX07 (x : RegIx) (s : State) : Result := .next (s.setReg x s.dt).advance

/-- FX15, R177: "delay_timer ... = VX." -/
def execFX15 (x : RegIx) (s : State) : Result := .next (s.setDt (s.reg x)).advance

/-- FX18, R178: "sound_timer = VX." -/
def execFX18 (x : RegIx) (s : State) : Result := .next (s.setSt (s.reg x)).advance

end Sys2Proof.Machine
end

