-- ==== Sys2Proof/Machine/HostSteps.lean ====
section
/-! DEFINITION. What the host can do to the machine and see of it: construction, the three host steps, and the outputs
(spec/70_reset_and_hazards.md R230 to R234; spec/42_display.md R156, R157; spec/43_keypad_timers.md R171, R179, R180). -/

namespace Sys2Proof.Machine

/-- `Construct(ROM)` (R230, R231): every piece of state at its reset value, the font in place, then the ROM verbatim at
0x200. A ROM longer than 0xE00 bytes raises ResourceError with its length, saturated at 0xFFFF (R205, R200).
`dirty` is the OPEN launch parameter `DIRTY_RESET` (R6, D14). -/
def construct (dirty : Bool) (rom : List Byte) : State :=
  let s := { State.reset with dirty := dirty }
  if Config.romMax < rom.length then s.raise .resourceError (BitVec.ofNat 16 (min rom.length 0xFFFF))
  else s.setMem (s.mem.storeBytes Config.progBase rom)

/-- `Tick` (R179): both timers in one step, nothing else. -/
def State.tick (s : State) : State := { s with dt := countDown s.dt, st := countDown s.st }

/-- `KeyWrite(k)` (R171): all 16 flags at once, nothing else. -/
def State.keyWrite (s : State) (k : Word) : State := { s with keys := k }

/-- The frame that a `FrameRead` delivers: 2048 elements, element `64 * y + x` is `FB[y][x]`, an on pixel as 1 (R157,
D18). -/
def State.frame (s : State) : List (BitVec 1) :=
  s.fb.toList.flatMap fun row => row.toList.map BitVec.ofBool

/-- `FrameRead` (R156): the host receives the frame, and `DIRTY <- 0`. -/
def State.frameRead (s : State) : List (BitVec 1) × State := (s.frame, { s with dirty := false })

/-- What the host receives from one step: the `frame` output is the result of `frame_read` (R156, R233), and no other
step delivers it, for the host cannot read "the framebuffer other than through `frame_read`" (R234). -/
def received (e : Event) (s : State) : Option (List (BitVec 1)) :=
  match e with
  | .frameRead => some s.frameRead.1
  | .cycle => none
  | .tick => none
  | .keyWrite _ => none

/-- The outputs of R233 that stand open to the host between the steps. The `frame` output is not one of them: it comes
with a `FrameRead` step only (`received`). -/
structure Outputs where
  dirty : Bool
  sound : Byte
  halted : Bool
  cause : BitVec 3
  info : Word
  deriving DecidableEq, Repr

/-- What the host can read at any time, without side effect: DIRTY (R157), ST (R180), the fault latch (R204). -/
def State.outputs (s : State) : Outputs where
  dirty := s.dirty
  sound := s.st
  halted := s.halted
  cause := s.cause.code
  info := s.info

/-- "sound_timer value, nonzero meaning 'tone should sound.'" (R180). -/
def State.toneSounds (s : State) : Bool := s.st != 0#8

end Sys2Proof.Machine
end

