-- ==== Sys2Proof/Machine/Cycle.lean ====
section
/-! DEFINITION. The `Cycle` step (spec/40_control_flow.md R100) and the run of one event (spec/00_scope.md R7). -/

namespace Sys2Proof.Machine

/-- `Cycle` (R100): with HALTED = 1 there is none, "the CPU fetches nothing and changes nothing" (R204), and the
`cycle` event is "ignored" (R233). Otherwise fetch, which may raise Fetch(pc), then decode, which may raise
DecodeError(op), then execute (R202). -/
def cycle (s : State) : Result :=
  if s.halted then .next s
  else
    match s.fetchWord with
    | none => .next (s.raise .fetch s.pc)
    | some op =>
      match decode op with
      | none => .next (s.raise .decodeError op)
      | some i => exec i s

/-- One atomic step of R7. Host steps act in the halted state too (R213). -/
def runEvent (e : Event) (s : State) : Result :=
  match e with
  | .cycle => cycle s
  | .tick => .next s.tick
  | .keyWrite k => .next (s.keyWrite k)
  | .frameRead => .next s.frameRead.2

/-- The next step to take and the state once it is taken off: the first of the schedule, or, when that is empty, what the
driver has next (R6, R7). `stream` is what an unconstrained driver follows. -/
def State.nextEvent (stream : Nat → Event) (s : State) : Event × State :=
  match s.schedule with
  | e :: es => (e, { s with schedule := es })
  | [] =>
    match s.driver with
    | .alone => (.cycle, s)
    | .repeats e es => (e, { s with schedule := es })
    | .free k => (stream k, { s with driver := .free (k + 1) })

/-- One step of the machine whose unconstrained driver follows `stream`: "the schedule of host steps" is a launch
parameter "which the model takes as arguments" (R6). -/
def stepUnder (stream : Nat → Event) (s : State) : Result := runEvent (s.nextEvent stream).1 (s.nextEvent stream).2

/-- The schedule under which the next step is a `Cycle`, the steps that were to come following it. -/
def State.cycleNext (s : State) : List Event :=
  match s.schedule, s.driver with
  | [], .alone => []
  | es, _ => .cycle :: es

end Sys2Proof.Machine
end

