-- ==== Sys2Proof/Machine/Step.lean ====
section
/-! DEFINITION. The step of the machine: the next of the atomic steps of spec/00_scope.md R7, in whatever order the
schedule and the driver give (spec/70_reset_and_hazards.md R233; log entry 3). -/

namespace Sys2Proof.Machine

/-- One step: the next of the schedule or of the driver (R6, R7), an unconstrained driver following the free value
`Config.freeEvent`. -/
def step (s : State) : Host.Outcome State Fault Refusal := stepUnder Config.freeEvent s

/-- The state with an instruction stored where the next step fetches it: its two bytes at PC, the high byte first
(R54), and a `Cycle` put before every step to come. It supposes a machine that fetches (HALTED = 0, PC at most
0xFFE), as the reset state is. -/
def State.withFetchWord (s : State) (nbits w : Nat) : State :=
  { s with
    mem := s.mem.storeBytes s.pc.toNat [highByte (tableWord nbits w), lowByte (tableWord nbits w)]
    schedule := s.cycleNext }

end Sys2Proof.Machine
end

