-- ==== Sys2Proof/Safety.lean ====
section
/-! DEFINITION. The terms claims are stated in: what a safe run is, the machine's invariant, what an instruction leaves
unchanged, which registers it may write, and when two states cannot be told apart. -/

namespace Sys2Proof.Machine

/-- A machine that is not halted: "a halted state is never a final state" (spec/60_exceptions.md R214). A claim that a
run is safe is the claim that its last state is running, since the latch is never cleared (R204). -/
def State.running (s : State) : Prop := s.halted = false

/-- The conventional end marker (R242): at rest at `a`, where the word at `a` is the self-jump `1NNN` with
`nnn = a`. -/
def State.atRest (s : State) (a : Addr12) : Prop :=
  s.running ∧ s.pc = absAddress a ∧ s.fetchWord = some (encode (.op1NNN a))

/-! ### The invariant -/

/-- What holds of the machine in every state a run reaches: memory in canonical form, PC at most 0x1002 (R22), every
live stack entry an address an instruction was fetched from (R24, R32), and a latch whose three parts agree (R30). -/
structure State.Inv (s : State) : Prop where
  memory : s.mem.wf = true
  pcBound : s.pc.toNat ≤ 0x1002
  stackBound : ∀ k (_ : k < Config.stackDepth), k < s.sp.val → s.stk[k].toNat ≤ 0xFFE
  latch : s.halted = true ↔ s.cause ≠ .none
  noInfo : s.halted = false → s.info = 0#16

/-! ### What is unchanged from `s` to `t` -/

/-- Every general register outside `xs` is unchanged. -/
def SameRegs (xs : List RegIx) (s t : State) : Prop := ∀ r, r ∉ xs → t.reg r = s.reg r

/-- Every byte of memory reads as before. -/
def SameMemory (s t : State) : Prop := ∀ a, t.mem.load a = s.mem.load a

/-- Every byte outside the `n` at `lo` reads as before. -/
def SameMemoryOutside (lo n : Nat) (s t : State) : Prop :=
  ∀ a, a < lo ∨ lo + n ≤ a → t.mem.load a = s.mem.load a

/-- The stack's depth and entries are unchanged. -/
def SameStack (s t : State) : Prop := t.sp = s.sp ∧ t.stk = s.stk

/-- The framebuffer and the dirty flag are unchanged. -/
def SameDisplay (s t : State) : Prop := t.fb = s.fb ∧ t.dirty = s.dirty

/-- Both timers are unchanged. -/
def SameTimers (s t : State) : Prop := t.dt = s.dt ∧ t.st = s.st

/-- The fault latch is unchanged. -/
def SameLatch (s t : State) : Prop := t.halted = s.halted ∧ t.cause = s.cause ∧ t.info = s.info

/-- The keys and the model's own fields are unchanged. -/
def SameOutside (s t : State) : Prop := 
  t.keys = s.keys ∧ t.schedule = s.schedule ∧ t.driver = s.driver ∧ t.freeIx = s.freeIx

/-- Nothing but the registers in `xs` and PC may differ. -/
def OnlyRegs (xs : List RegIx) (s t : State) : Prop :=
  SameRegs xs s t ∧ t.i = s.i ∧ SameMemory s t ∧ SameStack s t ∧ SameDisplay s t ∧ SameTimers s t ∧ SameLatch s t ∧
    SameOutside s t

/-- Nothing but I and PC may differ. -/
def OnlyIndex (s t : State) : Prop :=
  SameRegs [] s t ∧ SameMemory s t ∧ SameStack s t ∧ SameDisplay s t ∧ SameTimers s t ∧ SameLatch s t ∧ SameOutside s t

/-- Nothing but the stack and PC may differ. -/
def OnlyStack (s t : State) : Prop :=
  SameRegs [] s t ∧ t.i = s.i ∧ SameMemory s t ∧ SameDisplay s t ∧ SameTimers s t ∧ SameLatch s t ∧ SameOutside s t

/-- Nothing but the display, the registers in `xs` and PC may differ. -/
def OnlyDisplay (xs : List RegIx) (s t : State) : Prop :=
  SameRegs xs s t ∧ t.i = s.i ∧ SameMemory s t ∧ SameStack s t ∧ SameTimers s t ∧ SameLatch s t ∧ SameOutside s t

/-- Nothing but the timers and PC may differ. -/
def OnlyTimers (s t : State) : Prop :=
  SameRegs [] s t ∧ t.i = s.i ∧ SameMemory s t ∧ SameStack s t ∧ SameDisplay s t ∧ SameLatch s t ∧ SameOutside s t

/-- Nothing but the `n` bytes at `lo`, I and PC may differ. -/
def OnlyBytesAndIndex (lo n : Nat) (s t : State) : Prop :=
  SameRegs [] s t ∧ SameMemoryOutside lo n s t ∧ SameStack s t ∧ SameDisplay s t ∧ SameTimers s t ∧ SameLatch s t ∧
    SameOutside s t

/-- Nothing but the registers V0 to Vx, I and PC may differ. -/
def OnlyRegsUpToAndIndex (x : RegIx) (s t : State) : Prop :=
  (∀ r : RegIx, x.toNat < r.toNat → t.reg r = s.reg r) ∧ SameMemory s t ∧ SameStack s t ∧ SameDisplay s t ∧
    SameTimers s t ∧ SameLatch s t ∧ SameOutside s t

/-- The fault entry of R203 with nothing else changed: `HALTED <- 1; CAUSE <- c; INFO <- info`. -/
def haltedBy (s : State) (c : Cause) (info : Word) : State := { s with halted := true, cause := c, info := info }

/-! ### Which registers an instruction may write (spec/10_state.md, the table under R20) -/

/-- Whether an instruction may write general register `r`, as destination or as flag. -/
def mayWrite : Instr → RegIx → Bool
  | .op6XNN x _, r | .op7XNN x _, r | .op8XY0 x _, r | .op8XY1 x _, r | .op8XY2 x _, r | .op8XY3 x _, r
  | .opFX07 x, r | .opFX0A x, r => r == x
  | .op8XY4 x _, r | .op8XY5 x _, r | .op8XY6 x _, r | .op8XY7 x _, r | .op8XYE x _, r => r == x || r == regF
  | .opDXYN _ _ _, r => r == regF
  | .opFX65 x, r => decide (r.toNat ≤ x.toNat)
  | .op00E0, _ | .op00EE, _ | .op1NNN _, _ | .op2NNN _, _ | .op3XNN _ _, _ | .op4XNN _ _, _ | .op5XY0 _ _, _
  | .op9XY0 _ _, _ | .opANNN _, _ | .opEX9E _, _ | .opEXA1 _, _ | .opFX15 _, _ | .opFX18 _, _ | .opFX1E _, _
  | .opFX29 _, _ | .opFX33 _, _ | .opFX55 _, _ => false

/-- The one fault an instruction can raise of its own (spec/60_exceptions.md R201). -/
def ownFault : Instr → Cause
  | .op00EE => .stackUnderflow
  | .op2NNN _ => .stackOverflow
  | .opDXYN _ _ _ | .opFX33 _ | .opFX55 _ | .opFX65 _ => .memory
  | .opEX9E _ | .opEXA1 _ => .keyIndex
  | .op00E0 | .op1NNN _ | .op3XNN _ _ | .op4XNN _ _ | .op5XY0 _ _ | .op6XNN _ _ | .op7XNN _ _ | .op8XY0 _ _
  | .op8XY1 _ _ | .op8XY2 _ _ | .op8XY3 _ _ | .op8XY4 _ _ | .op8XY5 _ _ | .op8XY6 _ _ | .op8XY7 _ _ | .op8XYE _ _
  | .op9XY0 _ _ | .opANNN _ | .opFX07 _ | .opFX0A _ | .opFX15 _ | .opFX18 _ | .opFX1E _ | .opFX29 _ => .none

/-- Whether an instruction is a conditional skip (R105 to R108, R172, R173). -/
def isSkip : Instr → Bool
  | .op3XNN _ _ | .op4XNN _ _ | .op5XY0 _ _ | .op9XY0 _ _ | .opEX9E _ | .opEXA1 _ => true
  | .op00E0 | .op00EE | .op1NNN _ | .op2NNN _ | .op6XNN _ _ | .op7XNN _ _ | .op8XY0 _ _ | .op8XY1 _ _ | .op8XY2 _ _
  | .op8XY3 _ _ | .op8XY4 _ _ | .op8XY5 _ _ | .op8XY6 _ _ | .op8XY7 _ _ | .op8XYE _ _ | .opANNN _ | .opDXYN _ _ _
  | .opFX07 _ | .opFX0A _ | .opFX15 _ | .opFX18 _ | .opFX1E _ | .opFX29 _ | .opFX33 _ | .opFX55 _ | .opFX65 _ => false

/-! ### Where a sprite lands -/

/-- DXYN with the registers and memory of `s` has a sprite bit that is 1 for screen pixel (`py`, `px`): bit `7 - c` of
the byte at I + r, with the pixel at column `(VX mod 64 + c) mod 64` and row `(VY mod 32 + r) mod 32` (R151, R152). -/
def spriteCovers (s : State) (x y : RegIx) (n : Height) (py : Fin Config.dispH) (px : Fin Config.dispW) : Prop :=
  ∃ r c, r < n.toNat ∧ c < 8 ∧ (s.mem.load (s.dataAddress + r)).getLsbD (7 - c) = true ∧
    py.val = ((s.reg y).toNat % Config.dispH + r) % Config.dispH ∧
    px.val = ((s.reg x).toNat % Config.dispW + c) % Config.dispW

/-! ### States that cannot be told apart -/

/-- The two states differ at most in stack entries at index SP and above, which "no rule reads" (R24). -/
def SameButDeadStack (s t : State) : Prop :=
  t = { s with stk := t.stk } ∧ ∀ k (_ : k < Config.stackDepth), k < s.sp.val → t.stk[k] = s.stk[k]

/-- The two states differ at most in the state no instruction reads: ST, DIRTY, CAUSE and INFO (R26, R29, R30). -/
def SameButHostOnly (s t : State) : Prop :=
  t = { s with st := t.st, dirty := t.dirty, cause := t.cause, info := t.info }

/-! ### Runs (spec/00_scope.md R7) -/

/-- `Runs s es t`: the atomic steps `es`, one after the other, each complete before the next begins, lead from `s` to
`t`. The schedule and the driver of the states play no part. -/
inductive Runs : State → List Event → State → Prop where
  | done (s : State) : Runs s [] s
  | more {s t u : State} {e : Event} {es : List Event} : runEvent e s = .next t → Runs t es u → Runs s (e :: es) u

end Sys2Proof.Machine
end

