-- ==== Sys2Proof/Certificates/Slice0/Obligations.lean ====
section
/-! DEFINITION. The statements for the provers, from the spec's numbered rules. A docstring names the rule; where a clause
rests on a choice of the model or of the spec, the docstring names the log entry or the spec's decision D<n>. Wherever a
fault is stated, the latch HALTED, CAUSE, INFO and its codes are the spec's decision D3 (log entry 10), and that the
fault is a next state is log entry 1. -/

open Sys2Proof Sys2Proof.Machine

/-! ### Encoding -/

/-- R71, R72, R73: no operand bit is lost between the encoder and the decoder, for every instruction and every operand
value, as a word and as bytes followed by any others. -/
def Obligations.EncodedInstructionDecodesToItself : Prop :=
  ∀ (i : Instr) (rest : List Byte),
    decode (encode i) = some i ∧ decodeBytes (encodeBytes i ++ rest) = some (i, rest)

/-- R73 (D8): the match is exact, so a word has one meaning and that meaning has no other word. -/
def Obligations.DecodedWordEncodesToItself : Prop :=
  ∀ (op : Word) (i : Instr), decode op = some i → encode i = op

/-- R73 (D8), over the table of R74: a word decodes to the instruction of the row it matches, to none where it matches no
row, and the rows are mutually exclusive. -/
def Obligations.WordDecodesExactlyByTheRowItMatches : Prop :=
  (∀ (op : Word) (i : Instr), decode op = some i →
    ∃ row ∈ opcodeTable, row.mnemonic = i.mnemonic ∧ op &&& row.mask = row.pattern) ∧
  (∀ (op : Word), ∀ row ∈ opcodeTable, op &&& row.mask = row.pattern →
    ∃ i, decode op = some i ∧ i.mnemonic = row.mnemonic) ∧
  (∀ (op : Word), (∀ row ∈ opcodeTable, op &&& row.mask ≠ row.pattern) → decode op = none) ∧
  (∀ (op : Word), ∀ r₁ ∈ opcodeTable, ∀ r₂ ∈ opcodeTable,
    op &&& r₁.mask = r₁.pattern → op &&& r₂.mask = r₂.pattern → r₁ = r₂)

/-- R75's table of illegal words (D8, D21), as numbers, and that executing one is the fatal DecodeError with the word as INFO. -/
def Obligations.IllegalWordsAreThoseListedAndHalt : Prop :=
  (∀ op : Word, decode op = none ↔
    (op.toNat < 0x1000 ∧ op.toNat ≠ 0x00E0 ∧ op.toNat ≠ 0x00EE) ∨
    (op.toNat / 0x1000 = 5 ∧ op.toNat % 16 ≠ 0) ∨
    (op.toNat / 0x1000 = 8 ∧ op.toNat % 16 ∈ [8, 9, 0xA, 0xB, 0xC, 0xD, 0xF]) ∨
    (op.toNat / 0x1000 = 9 ∧ op.toNat % 16 ≠ 0) ∨
    op.toNat / 0x1000 = 0xB ∨
    op.toNat / 0x1000 = 0xC ∨
    (op.toNat / 0x1000 = 0xE ∧ op.toNat % 256 ∉ [0x9E, 0xA1]) ∨
    (op.toNat / 0x1000 = 0xF ∧ op.toNat % 256 ∉ [0x07, 0x0A, 0x15, 0x18, 0x1E, 0x29, 0x33, 0x55, 0x65])) ∧
  (∀ (s : State) (op : Word), s.running → s.fetchWord = some op → decode op = none →
    cycle s = .next (haltedBy s .decodeError op))

/-- R74: words written out bit by bit from the table decode to the instructions they stand for. -/
def Obligations.WordsWrittenFromTheTableDecode : Prop :=
  decode 0b0000000011101110#16 = some .op00EE ∧
  decode 0b0010001100000000#16 = some (.op2NNN 0x300#12) ∧
  decode 0b1000000100100110#16 = some (.op8XY6 0x1#4 0x2#4) ∧
  decode 0b1010001011110000#16 = some (.opANNN 0x2F0#12) ∧
  decode 0b1101000100100101#16 = some (.opDXYN 0x1#4 0x2#4 0x5#4) ∧
  decode 0b1110010010100001#16 = some (.opEXA1 0x4#4) ∧
  decode 0b1111001101010101#16 = some (.opFX55 0x3#4)

/-! ### The cycle and the step -/

/-- R100: when the bytes at PC decode to an instruction, a step that is a cycle is that instruction's `exec`, on the state
with that cycle taken off. A step is a cycle when one is next in the schedule or, when that is empty, the driver has it
next (log entry 3): a driver that leaves the CPU alone always, an unconstrained one where its free value says so. -/
def Obligations.StepRunsTheDecodedInstruction : Prop :=
  ∀ (s : State) (i : Instr), s.running → s.pc.toNat + 1 < 4096 →
    decode (opcodeOf (s.mem.load s.pc.toNat) (s.mem.load (s.pc.toNat + 1))) = some i →
    (s.schedule = [] → s.driver = .alone → step s = exec i s) ∧
    (∀ es, s.schedule = .cycle :: es → step s = exec i { s with schedule := es }) ∧
    (∀ es, s.schedule = [] → s.driver = .repeats .cycle es → step s = exec i { s with schedule := es }) ∧
    (∀ k, s.schedule = [] → s.driver = .free k → step s =
      if Config.freeEvent k = .cycle then exec i { s with driver := .free (k + 1) }
      else runEvent (Config.freeEvent k) { s with driver := .free (k + 1) })

/-- R52: the fetch is big-endian and raises BoundsError.Fetch(pc) exactly where `pc + 1 >= 4096`. -/
def Obligations.FetchIsBigEndianAndHaltsPastTheEnd : Prop :=
  (∀ s : State, s.pc.toNat + 1 < 4096 →
    ∃ op, s.fetchWord = some op ∧
      op.toNat = (s.mem.load s.pc.toNat).toNat * 256 + (s.mem.load (s.pc.toNat + 1)).toNat) ∧
  (∀ s : State, s.running → 4096 ≤ s.pc.toNat + 1 → cycle s = .next (haltedBy s .fetch s.pc))

/-- R204: a halted machine stays halted for ever, whatever steps come; the CPU "fetches nothing and changes nothing",
and no host step clears the latch. -/
def Obligations.HaltedMachineNeverMovesAgain : Prop :=
  ∀ (n : Nat) (s : State), s.halted = true →
    ∃ t : State, Sys2Proof.core.run n s = .next t ∧ SameLatch s t ∧ t.v = s.v ∧ t.pc = s.pc ∧ t.i = s.i ∧
      SameStack s t ∧ t.fb = s.fb ∧ t.mem = s.mem

/-- R34: what each kind of step may write. -/
def Obligations.EachStepWritesOnlyWhatItOwns : Prop :=
  (∀ s t : State, cycle s = .next t → t.keys = s.keys ∧ t.schedule = s.schedule ∧ t.driver = s.driver) ∧
  (∀ s : State, ∃ a b, runEvent .tick s = .next { s with dt := a, st := b }) ∧
  (∀ (s : State) (k : Word), ∃ a, runEvent (.keyWrite k) s = .next { s with keys := a }) ∧
  (∀ s : State, ∃ a, runEvent .frameRead s = .next { s with dirty := a })

/-- The model's choice (log entry 1): every fault is taken into the latch, so every instruction and every step answers
a next state; the model neither faults nor refuses. -/
def Obligations.EveryStepAnswersANextState : Prop :=
  (∀ (i : Instr) (s : State), ∃ t, exec i s = .next t) ∧ (∀ s : State, ∃ t, step s = .next t)

/-- R201: which fault each instruction can raise of its own, exhaustively; the faults of fetch and decode; and that no
host step can fault. -/
def Obligations.EachInstructionRaisesOnlyItsOwnFault : Prop :=
  (∀ (i : Instr) (s t : State), s.running → exec i s = .next t → t.halted = true →
    t.cause = ownFault i ∧ ownFault i ≠ .none) ∧
  (∀ s t : State, s.running → cycle s = .next t → t.halted = true →
    (s.fetchWord = none ∧ t.cause = .fetch) ∨
    (∃ op, s.fetchWord = some op ∧ decode op = none ∧ t.cause = .decodeError) ∨
    (∃ op i, s.fetchWord = some op ∧ decode op = some i ∧ t.cause = ownFault i ∧ ownFault i ≠ .none)) ∧
  (∀ (e : Event) (s t : State), e ≠ .cycle → runEvent e s = .next t → SameLatch s t)

/-- R203: a fault sets the latch, keeps PC, and leaves everything outside the instruction's write set unchanged; for
every fault but those of FX33, FX55 and FX65 nothing else has changed at all. -/
def Obligations.FaultKeepsPcAndAllOutsideTheWriteSet : Prop :=
  ∀ s t : State, s.running → cycle s = .next t → t.halted = true →
    t.cause ≠ .none ∧ t.pc = s.pc ∧ SameStack s t ∧ SameDisplay s t ∧ SameTimers s t ∧ t.keys = s.keys ∧
    t.schedule = s.schedule ∧ t.driver = s.driver ∧
    (t = haltedBy s t.cause t.info ∨
      ∃ op, s.fetchWord = some op ∧
        ((∃ x, decode op = some (.opFX33 x) ∧ SameRegs [] s t ∧ t.i = s.i ∧ SameMemoryOutside s.dataAddress 3 s t) ∨
         (∃ x, decode op = some (.opFX55 x) ∧ SameRegs [] s t ∧ SameMemoryOutside s.dataAddress (x.toNat + 1) s t) ∨
         (∃ x, decode op = some (.opFX65 x) ∧ (∀ r : RegIx, x.toNat < r.toNat → t.reg r = s.reg r) ∧
           SameMemory s t)))

/-- R101: where PC can be after one instruction: the next one, a taken skip, an explicit target, or unchanged for FX0A
with no key down; and unchanged by a faulting instruction. -/
def Obligations.PcAfterAnInstruction : Prop :=
  ∀ (i : Instr) (s t : State), s.running → exec i s = .next t →
    (t.halted = true → t.pc = s.pc) ∧
    (t.running →
      t.pc = s.pc + 2#16 ∨
      (isSkip i = true ∧ t.pc = s.pc + 4#16) ∨
      (∃ nnn, (i = .op1NNN nnn ∨ i = .op2NNN nnn) ∧ t.pc.toNat = nnn.toNat) ∨
      (i = .op00EE ∧ ∃ k, ∃ hk : k < 16, s.sp.val = k + 1 ∧ t.pc = s.stk[k] + 2#16) ∨
      (∃ x, i = .opFX0A x ∧ (∀ k < 16, s.keyDown k = false) ∧ t.pc = s.pc))

/-- R7 and R233: the pending host steps and cycles run in their order, each complete before the next, whatever the order
is. That the schedule stands in the state is the model's choice (log entry 3). -/
def Obligations.EventsRunInTheScheduledOrder : Prop :=
  ∀ (es : List Event) (s : State), ∃ t : State,
    Sys2Proof.core.run es.length { s with schedule := es } = .next t ∧ Runs { s with schedule := [] } es t

/-- R7: "a model must admit every interleaving": for every endless sequence of steps and every state there is the endless
run that takes them in that order; each of its beginnings is a run of `step` under a schedule, and the whole is the run of
the machine whose unconstrained driver follows that sequence. How the model holds the sequence is its own choice (log
entry 3). -/
def Obligations.EveryEndlessInterleavingIsARun : Prop :=
  ∀ (σ : Nat → Event) (s : State), ∃ r : Nat → State, r 0 = s ∧
    (∀ n, runEvent (σ n) (r n) = .next (r (n + 1))) ∧
    (∀ n, Sys2Proof.core.run n { s with schedule := (List.range n).map σ } = .next { r n with schedule := [] }) ∧
    (∀ n, stepUnder σ { r n with schedule := [], driver := .free n } =
      .next { r (n + 1) with schedule := [], driver := .free (n + 1) })

/-- R7, R181, R233: what `step` does for ever once the schedule is empty, for each driver (log entry 3): alone, the CPU
cycles; repeating, the host's steps come round without end, here any number of laps; unconstrained, the free values of
`Config.freeEvent` come one after the other, here any number of them. -/
def Obligations.DriverGivesTheStepsWithoutEnd : Prop :=
  (∀ s : State, s.schedule = [] → s.driver = .alone → step s = cycle s) ∧
  (∀ (s : State) (e : Event) (es : List Event) (m : Nat), s.schedule = [] → s.driver = .repeats e es →
    ∃ t, Sys2Proof.core.run (m * (es.length + 1)) s = .next t ∧ Runs s (List.replicate m (e :: es)).flatten t) ∧
  (∀ (s : State) (k n : Nat), s.schedule = [] → s.driver = .free k →
    ∃ t, Sys2Proof.core.run n s = .next { t with driver := .free (k + n) } ∧
      Runs s ((List.range n).map fun j => Config.freeEvent (k + j)) t)

/-! ### Invariants and whole-machine rules -/

/-- Every step keeps the invariant of Safety.lean: memory in canonical form, PC at most 0x1002 (R22), live stack
entries at most 0xFFE (R32), a latch whose parts agree (R30). -/
def Obligations.EveryStepKeepsTheInvariant : Prop :=
  ∀ s t : State, s.Inv → step s = .next t → t.Inv

/-- The invariant holds right after reset. -/
def Obligations.ResetMeetsTheInvariant : Prop := State.reset.Inv

/-- The invariant holds after every construction, of an oversized ROM too. -/
def Obligations.ConstructionMeetsTheInvariant : Prop := ∀ (dirty : Bool) (rom : List Byte), (construct dirty rom).Inv

/-- The write half of the table under R20: an instruction changes a general register only where the table lets it. -/
def Obligations.RegistersChangeOnlyWhereTheTableSays : Prop :=
  ∀ (i : Instr) (s t : State) (r : RegIx), exec i s = .next t → t.reg r ≠ s.reg r → mayWrite i r = true

/-- R50: memory is mutated only by FX33 and FX55, only in the bytes they aim at, and those exist. -/
def Obligations.MemoryChangesOnlyByItsTwoStores : Prop :=
  ∀ (i : Instr) (s t : State) (a : Nat), exec i s = .next t → t.mem.load a ≠ s.mem.load a →
    a < 4096 ∧ ((∃ x, i = .opFX33 x ∧ s.dataAddress ≤ a ∧ a < s.dataAddress + 3) ∨
      (∃ x, i = .opFX55 x ∧ s.dataAddress ≤ a ∧ a < s.dataAddress + (x.toNat + 1)))

/-- R26, R29, R30: ST, DIRTY, CAUSE and INFO are read by no instruction: two machines that differ only there run the
same instructions with the same effect on everything else. -/
def Obligations.HostOnlyStateNeverSteersTheCpu : Prop :=
  ∀ s s' t : State, SameButHostOnly s s' → cycle s = .next t →
    ∃ t', cycle s' = .next t' ∧ SameButHostOnly t t'

/-- R24: "entries at index SP and above have no meaning and no rule reads them". So the values the model gives them at
reset (log entry 5) can be seen neither by a program nor by the host, in its outputs or in a frame it reads. -/
def Obligations.DeadStackEntriesAreUnobservable : Prop :=
  ∀ s s' t : State, SameButDeadStack s s' → step s = .next t →
    ∃ t', step s' = .next t' ∧ SameButDeadStack t t' ∧ t'.outputs = t.outputs ∧ ∀ e, received e t' = received e t

/-! ### Construction, reset, host steps -/

/-- R205, R231: a ROM of up to 0xE00 bytes is loaded verbatim at 0x200 and everything else is as at reset; a longer one
leaves a machine halted with CAUSE 7 and its length, saturated, as INFO; with an empty ROM the first cycle fetches
0x0000 (D13) and raises DecodeError. -/
def Obligations.ConstructionLoadsTheRomOrHalts : Prop :=
  (∀ (dirty : Bool) (rom : List Byte), rom.length ≤ 0xE00 →
    construct dirty rom = { State.reset with dirty := dirty, mem := (construct dirty rom).mem } ∧
    (∀ k, ∀ h : k < rom.length, (construct dirty rom).mem.load (0x200 + k) = rom[k]) ∧
    (∀ a, a < 0x200 ∨ 0x200 + rom.length ≤ a → (construct dirty rom).mem.load a = State.reset.mem.load a)) ∧
  (∀ (dirty : Bool) (rom : List Byte), 0xE00 < rom.length →
    (construct dirty rom).halted = true ∧ (construct dirty rom).cause.code = 7#3 ∧
    (construct dirty rom).info.toNat = min rom.length 0xFFFF) ∧
  (∀ dirty : Bool, cycle (construct dirty []) = .next (haltedBy (construct dirty []) .decodeError 0x0000#16))

/-- R33: the reset state. The zeros of SP, DT, ST, FB, KEY and of memory outside the font are the spec's decisions D13
and D14, the font's address D11 and bytes U9 (log entries 7, 8, 9). -/
def Obligations.ResetStateIsAsTabled : Prop :=
  (∀ r, State.reset.reg r = 0#8) ∧ State.reset.i = 0#16 ∧ State.reset.pc = 0x200#16 ∧ State.reset.sp.val = 0 ∧
  State.reset.dt = 0#8 ∧ State.reset.st = 0#8 ∧ (∀ y x, State.reset.fb.pixel y x = false) ∧
  (∀ k, State.reset.keyDown k = false) ∧ State.reset.running ∧ State.reset.cause.code = 0#3 ∧
  State.reset.info = 0#16 ∧
  (∀ k, ∀ h : k < font.length, State.reset.mem.load (0x050 + k) = font[k]) ∧ font.length = 80 ∧
  (∀ a, a < 0x050 ∨ 0x0A0 ≤ a → State.reset.mem.load a = 0#8)

/-- R179: one tick counts both timers down by 1, floored at 0, and changes nothing else; so n ticks count down by n. -/
def Obligations.TicksCountBothTimersDownToZero : Prop :=
  (∀ s : State, ∃ t, runEvent .tick s = .next t ∧ t.dt.toNat = s.dt.toNat - 1 ∧ t.st.toNat = s.st.toNat - 1 ∧
    t = { s with dt := t.dt, st := t.st }) ∧
  (∀ (n : Nat) (s : State), (State.tick^[n] s).dt.toNat = s.dt.toNat - n ∧ (State.tick^[n] s).st.toNat = s.st.toNat - n)

/-- R171 (D1): KeyWrite replaces all 16 flags at once and changes nothing else. -/
def Obligations.KeyWriteReplacesAllSixteenFlags : Prop :=
  ∀ (s : State) (k : Word), ∃ t, runEvent (.keyWrite k) s = .next t ∧ t = { s with keys := t.keys } ∧
    ∀ i < 16, t.keyDown i = k.getLsbD i

/-- R156, R157 (D18): FrameRead gives the host 2048 elements, element `64 * y + x` being `FB[y][x]`, and clears DIRTY only. -/
def Obligations.FrameReadDeliversTheFrameAndClearsDirty : Prop :=
  ∀ s : State, runEvent .frameRead s = .next { s with dirty := false } ∧ s.frameRead.2 = { s with dirty := false } ∧
    s.frameRead.1.length = 2048 ∧
    ∀ (y : Fin 32) (x : Fin 64), s.frameRead.1[64 * y.val + x.val]? = some (BitVec.ofBool (s.fb.pixel y x))

/-- R234 (D2), of the framebuffer: a `FrameRead` delivers it as it is at that moment, no other step delivers anything, and
the outputs open between the steps do not depend on it. -/
def Obligations.FramebufferReachesTheHostOnlyByFrameRead : Prop :=
  (∀ s : State, received .frameRead s = some s.frame) ∧
  (∀ (s : State) (e : Event), e ≠ .frameRead → received e s = none) ∧
  (∀ (s : State) (fb : Framebuffer), ({ s with fb := fb } : State).outputs = s.outputs)

/-- R242 (D23): at the conventional end marker every cycle leaves the whole state unchanged. -/
def Obligations.SelfJumpIsARestState : Prop := ∀ (s : State) (a : Addr12), s.atRest a → cycle s = .next s

/-! ### Control flow -/

/-- R103: 1NNN sets PC to NNN and changes nothing else. -/
def Obligations.JumpGoesToItsAddress : Prop :=
  ∀ (nnn : Addr12) (s : State), ∃ t, exec (.op1NNN nnn) s = .next t ∧ t.pc.toNat = nnn.toNat ∧ OnlyRegs [] s t

/-- R104: 2NNN pushes its own address and jumps; on a full stack it raises StackOverflow(pc), nothing else changed. -/
def Obligations.CallPushesItsOwnAddressAndJumps : Prop :=
  (∀ (nnn : Addr12) (s : State) (h : s.sp.val < 16), ∃ t, exec (.op2NNN nnn) s = .next t ∧
    t.pc.toNat = nnn.toNat ∧ t.sp.val = s.sp.val + 1 ∧ t.stk[s.sp.val] = s.pc ∧
    (∀ k, ∀ hk : k < 16, k ≠ s.sp.val → t.stk[k] = s.stk[k]) ∧ OnlyStack s t) ∧
  (∀ (nnn : Addr12) (s : State), s.sp.val = 16 → exec (.op2NNN nnn) s = .next (haltedBy s .stackOverflow s.pc))

/-- R102: 00EE pops and continues two bytes after the popped address; on an empty stack it raises
StackUnderflow(pc), nothing else changed. -/
def Obligations.ReturnPopsAndAddsTwo : Prop :=
  (∀ (s : State) (k : Nat) (hk : k < 16), s.sp.val = k + 1 → ∃ t, exec .op00EE s = .next t ∧
    t.pc = s.stk[k] + 2#16 ∧ t.sp.val = k ∧ t.stk = s.stk ∧ OnlyStack s t) ∧
  (∀ s : State, s.sp.val = 0 → exec .op00EE s = .next (haltedBy s .stackUnderflow s.pc))

/-- R25: the stack primitives: "pushing then popping returns the same address; 16 consecutive pushes succeed; the 17th
fails with overflow; popping an empty stack fails with underflow". -/
def Obligations.StackIsLastInFirstOutSixteenDeep : Prop :=
  (∀ (s t : State) (a : Word), s.push a = some t → t.sp.val = s.sp.val + 1 ∧ ∃ u, t.pop = some (a, u) ∧ u.sp = s.sp) ∧
  (∀ (s : State) (as : List Word), s.sp.val = 0 → as.length = 16 →
    ∃ t, as.foldlM State.push s = some t ∧ ∀ a, t.push a = none) ∧
  (∀ (s : State) (a : Word), s.sp.val = 16 → s.push a = none) ∧
  (∀ s : State, s.sp.val = 0 → s.pop = none)

/-- R102, R104: a subroutine that leaves the stack as the call left it returns to the instruction after the call. -/
def Obligations.ReturnResumesAfterTheCall : Prop :=
  ∀ (nnn : Addr12) (s : State), s.sp.val < 16 → ∃ t, exec (.op2NNN nnn) s = .next t ∧
    ∀ u : State, SameStack t u → ∃ w, exec .op00EE u = .next w ∧ w.pc = s.pc + 2#16 ∧ w.sp = s.sp

/-- R105, R106: 3XNN skips when VX = NN, 4XNN when VX != NN; nothing but PC changes. -/
def Obligations.ImmediateSkipsCompareAllEightBits : Prop :=
  (∀ (x : RegIx) (nn : Byte) (s : State), ∃ t, exec (.op3XNN x nn) s = .next t ∧
    t.pc = (if (s.reg x).toNat = nn.toNat then s.pc + 4#16 else s.pc + 2#16) ∧ OnlyRegs [] s t) ∧
  (∀ (x : RegIx) (nn : Byte) (s : State), ∃ t, exec (.op4XNN x nn) s = .next t ∧
    t.pc = (if (s.reg x).toNat ≠ nn.toNat then s.pc + 4#16 else s.pc + 2#16) ∧ OnlyRegs [] s t)

/-- R107, R108: 5XY0 skips when VX = VY, 9XY0 when VX != VY; nothing but PC changes. -/
def Obligations.RegisterSkipsCompareAllEightBits : Prop :=
  (∀ (x y : RegIx) (s : State), ∃ t, exec (.op5XY0 x y) s = .next t ∧
    t.pc = (if (s.reg x).toNat = (s.reg y).toNat then s.pc + 4#16 else s.pc + 2#16) ∧ OnlyRegs [] s t) ∧
  (∀ (x y : RegIx) (s : State), ∃ t, exec (.op9XY0 x y) s = .next t ∧
    t.pc = (if (s.reg x).toNat ≠ (s.reg y).toNat then s.pc + 4#16 else s.pc + 2#16) ∧ OnlyRegs [] s t)

/-! ### Loads and ALU -/

/-- R122, R123: 6XNN loads NN; 7XNN adds NN modulo 256 and writes no flag. -/
def Obligations.ImmediateLoadAndAddWriteOnlyVx : Prop :=
  (∀ (x : RegIx) (nn : Byte) (s : State), ∃ t, exec (.op6XNN x nn) s = .next t ∧ t.reg x = nn ∧
    t.pc = s.pc + 2#16 ∧ OnlyRegs [x] s t) ∧
  (∀ (x : RegIx) (nn : Byte) (s : State), ∃ t, exec (.op7XNN x nn) s = .next t ∧
    (t.reg x).toNat = ((s.reg x).toNat + nn.toNat) % 256 ∧ t.pc = s.pc + 2#16 ∧ OnlyRegs [x] s t)

/-- R124 to R127: 8XY0 copies; 8XY1, 8XY2, 8XY3 act on each bit; none writes VF unless it is VX. -/
def Obligations.CopyAndLogicWriteOnlyVx : Prop :=
  (∀ (x y : RegIx) (s : State), ∃ t, exec (.op8XY0 x y) s = .next t ∧ t.reg x = s.reg y ∧
    t.pc = s.pc + 2#16 ∧ OnlyRegs [x] s t) ∧
  (∀ (x y : RegIx) (s : State), ∃ t, exec (.op8XY1 x y) s = .next t ∧
    (∀ k < 8, (t.reg x).getLsbD k = ((s.reg x).getLsbD k || (s.reg y).getLsbD k)) ∧
    t.pc = s.pc + 2#16 ∧ OnlyRegs [x] s t) ∧
  (∀ (x y : RegIx) (s : State), ∃ t, exec (.op8XY2 x y) s = .next t ∧
    (∀ k < 8, (t.reg x).getLsbD k = ((s.reg x).getLsbD k && (s.reg y).getLsbD k)) ∧
    t.pc = s.pc + 2#16 ∧ OnlyRegs [x] s t) ∧
  (∀ (x y : RegIx) (s : State), ∃ t, exec (.op8XY3 x y) s = .next t ∧
    (∀ k < 8, (t.reg x).getLsbD k = ((s.reg x).getLsbD k ^^ (s.reg y).getLsbD k)) ∧
    t.pc = s.pc + 2#16 ∧ OnlyRegs [x] s t)

/-- R128, R121 (D5): 8XY4 adds modulo 256 and VF is the carry, which survives when X = 0xF. -/
def Obligations.AddSetsVfToTheCarry : Prop :=
  ∀ (x y : RegIx) (s : State), ∃ t, exec (.op8XY4 x y) s = .next t ∧
    (x ≠ regF → (t.reg x).toNat = ((s.reg x).toNat + (s.reg y).toNat) % 256) ∧
    (t.reg regF).toNat = (if 255 < (s.reg x).toNat + (s.reg y).toNat then 1 else 0) ∧
    t.pc = s.pc + 2#16 ∧ OnlyRegs [x, regF] s t

/-- R129, R131 (D6), R121 (D5): 8XY5 and 8XY7 subtract modulo 256 and VF is 1 iff a borrow occurred, which survives when
X = 0xF. -/
def Obligations.SubtractionsSetVfToTheBorrow : Prop :=
  (∀ (x y : RegIx) (s : State), ∃ t, exec (.op8XY5 x y) s = .next t ∧
    (x ≠ regF → (t.reg x).toNat = ((s.reg x).toNat + 256 - (s.reg y).toNat) % 256) ∧
    (t.reg regF).toNat = (if (s.reg x).toNat < (s.reg y).toNat then 1 else 0) ∧
    t.pc = s.pc + 2#16 ∧ OnlyRegs [x, regF] s t) ∧
  (∀ (x y : RegIx) (s : State), ∃ t, exec (.op8XY7 x y) s = .next t ∧
    (x ≠ regF → (t.reg x).toNat = ((s.reg y).toNat + 256 - (s.reg x).toNat) % 256) ∧
    (t.reg regF).toNat = (if (s.reg y).toNat < (s.reg x).toNat then 1 else 0) ∧
    t.pc = s.pc + 2#16 ∧ OnlyRegs [x, regF] s t)

/-- R130, R132 (D7), R121 (D5): 8XY6 and 8XYE shift VY by one into VX; the flag is bit 0 or bit 7 of the old VX; when X = 0xF the
shifted value survives. -/
def Obligations.ShiftsTakeTheFlagFromVxAndTheValueFromVy : Prop :=
  (∀ (x y : RegIx) (s : State), ∃ t, exec (.op8XY6 x y) s = .next t ∧
    (t.reg x).toNat = (s.reg y).toNat / 2 ∧ (x ≠ regF → (t.reg regF).toNat = (s.reg x).toNat % 2) ∧
    t.pc = s.pc + 2#16 ∧ OnlyRegs [x, regF] s t) ∧
  (∀ (x y : RegIx) (s : State), ∃ t, exec (.op8XYE x y) s = .next t ∧
    (t.reg x).toNat = (s.reg y).toNat * 2 % 256 ∧ (x ≠ regF → (t.reg regF).toNat = (s.reg x).toNat / 128) ∧
    t.pc = s.pc + 2#16 ∧ OnlyRegs [x, regF] s t)

/-- R133, R134, R135: ANNN loads I, FX1E adds VX to I modulo 65536 (D9) and FX29 gives `FONT_BASE + 5 * VX` for all 8 bits
of VX (D10, D11); none writes VF. -/
def Obligations.IndexInstructionsWriteOnlyI : Prop :=
  (∀ (nnn : Addr12) (s : State), ∃ t, exec (.opANNN nnn) s = .next t ∧ t.i.toNat = nnn.toNat ∧
    t.pc = s.pc + 2#16 ∧ OnlyIndex s t) ∧
  (∀ (x : RegIx) (s : State), ∃ t, exec (.opFX1E x) s = .next t ∧
    t.i.toNat = (s.i.toNat + (s.reg x).toNat) % 65536 ∧ t.pc = s.pc + 2#16 ∧ OnlyIndex s t) ∧
  (∀ (x : RegIx) (s : State), ∃ t, exec (.opFX29 x) s = .next t ∧
    t.i.toNat = 0x050 + 5 * (s.reg x).toNat ∧ t.pc = s.pc + 2#16 ∧ OnlyIndex s t)

/-! ### Display -/

/-- R153: 00E0 sets every pixel to 0 and marks dirty; VF is not written. -/
def Obligations.ClearTurnsEveryPixelOff : Prop :=
  ∀ s : State, ∃ t, exec .op00E0 s = .next t ∧ (∀ y x, t.fb.pixel y x = false) ∧ t.dirty = true ∧
    t.pc = s.pc + 2#16 ∧ OnlyDisplay [] s t

/-- R154, R152: DXYN flips exactly the pixels the sprite covers, wrapping on both axes (D15), sets DIRTY and sets VF to 1
iff a covered pixel was on; a sprite not wholly in memory raises BoundsError.Memory(I) with nothing changed (D16). -/
def Obligations.DrawFlipsTheCoveredPixelsOrHalts : Prop :=
  (∀ (x y : RegIx) (n : Height) (s : State), s.dataAddress + n.toNat ≤ 4096 →
    ∃ t, exec (.opDXYN x y n) s = .next t ∧
      (∀ py px, t.fb.pixel py px ≠ s.fb.pixel py px ↔ spriteCovers s x y n py px) ∧
      ((∃ py px, spriteCovers s x y n py px ∧ s.fb.pixel py px = true) → t.reg regF = 1#8) ∧
      ((¬ ∃ py px, spriteCovers s x y n py px ∧ s.fb.pixel py px = true) → t.reg regF = 0#8) ∧
      t.dirty = true ∧ t.pc = s.pc + 2#16 ∧ OnlyDisplay [regF] s t) ∧
  (∀ (x y : RegIx) (n : Height) (s : State), 4096 < s.dataAddress + n.toNat →
    exec (.opDXYN x y n) s = .next (haltedBy s .memory s.i))

/-- R155 (D15): the flag is 1 iff a set sprite bit met a pixel that was 1, every such pixel is turned off, a set bit on a
clear pixel sets it, and where no sprite bit is set the pixel is unchanged. So VF = 1 iff some pixel was turned off. -/
def Obligations.CollisionMeansAPixelWasTurnedOff : Prop :=
  ∀ (x y : RegIx) (n : Height) (s t : State), s.dataAddress + n.toNat ≤ 4096 → exec (.opDXYN x y n) s = .next t →
    (t.reg regF = 1#8 ∨ t.reg regF = 0#8) ∧
    (t.reg regF = 1#8 ↔ ∃ py px, spriteCovers s x y n py px ∧ s.fb.pixel py px = true) ∧
    (∀ py px, spriteCovers s x y n py px → t.fb.pixel py px = !s.fb.pixel py px) ∧
    (∀ py px, ¬ spriteCovers s x y n py px → t.fb.pixel py px = s.fb.pixel py px) ∧
    (t.reg regF = 1#8 ↔ ∃ py px, s.fb.pixel py px = true ∧ t.fb.pixel py px = false)

/-- R152 (D15): drawing is XOR, so the same sprite drawn twice at one place restores the screen. -/
def Obligations.DrawingTwiceRestoresTheScreen : Prop :=
  ∀ (fb : Framebuffer) (vx vy : Byte) (rows : List Byte), rows.length ≤ 15 →
    (drawSprite (drawSprite fb vx vy rows).1 vx vy rows).1 = fb

/-! ### Keypad and timers -/

/-- R172, R173: EX9E skips on key VX down, EXA1 on key VX not down, for VX up to 15; a larger VX raises
BoundsError.KeyIndex(VX) with nothing else changed (D17). -/
def Obligations.KeySkipsTestTheKeyOfVx : Prop :=
  (∀ (x : RegIx) (s : State), (s.reg x).toNat ≤ 15 → ∃ t, exec (.opEX9E x) s = .next t ∧
    t.pc = (if s.keyDown (s.reg x).toNat = true then s.pc + 4#16 else s.pc + 2#16) ∧ OnlyRegs [] s t) ∧
  (∀ (x : RegIx) (s : State), (s.reg x).toNat ≤ 15 → ∃ t, exec (.opEXA1 x) s = .next t ∧
    t.pc = (if s.keyDown (s.reg x).toNat = false then s.pc + 4#16 else s.pc + 2#16) ∧ OnlyRegs [] s t) ∧
  (∀ (x : RegIx) (s : State), 15 < (s.reg x).toNat →
    ∃ info : Word, info.toNat = (s.reg x).toNat ∧
      exec (.opEX9E x) s = .next (haltedBy s .keyIndex info) ∧ exec (.opEXA1 x) s = .next (haltedBy s .keyIndex info))

/-- R174: FX0A takes the lowest-indexed key that is down; with none down nothing at all changes. -/
def Obligations.KeyWaitTakesTheLowestKeyOrWaits : Prop :=
  (∀ (x : RegIx) (s : State) (k : Nat), k < 16 → s.keyDown k = true → (∀ j < k, s.keyDown j = false) →
    ∃ t, exec (.opFX0A x) s = .next t ∧ (t.reg x).toNat = k ∧ t.pc = s.pc + 2#16 ∧ OnlyRegs [x] s t) ∧
  (∀ (x : RegIx) (s : State), (∀ k < 16, s.keyDown k = false) → exec (.opFX0A x) s = .next s)

/-- R175: while FX0A waits, cycles and ticks in turn leave everything as it is but the timers, which run down, for as many
of them as the schedule holds and without end under a driver that repeats them. -/
def Obligations.TimersRunDownDuringAKeyWait : Prop :=
  ∀ (n : Nat) (s : State) (op : Word) (x : RegIx), s.running → s.fetchWord = some op →
    decode op = some (.opFX0A x) → (∀ k < 16, s.keyDown k = false) →
    Sys2Proof.core.run (2 * n) { s with schedule := (List.replicate n [Event.cycle, Event.tick]).flatten } =
      .next { State.tick^[n] s with schedule := [] } ∧
    (s.schedule = [] → s.driver = .repeats .cycle [.tick] → Sys2Proof.core.run (2 * n) s = .next (State.tick^[n] s))

/-- R176, R177, R178: FX07 reads DT, FX15 writes DT, FX18 writes ST. -/
def Obligations.TimerInstructionsMoveOneByte : Prop :=
  (∀ (x : RegIx) (s : State), ∃ t, exec (.opFX07 x) s = .next t ∧ t.reg x = s.dt ∧ t.pc = s.pc + 2#16 ∧
    OnlyRegs [x] s t) ∧
  (∀ (x : RegIx) (s : State), ∃ t, exec (.opFX15 x) s = .next t ∧ t.dt = s.reg x ∧ t.st = s.st ∧
    t.pc = s.pc + 2#16 ∧ OnlyTimers s t) ∧
  (∀ (x : RegIx) (s : State), ∃ t, exec (.opFX18 x) s = .next t ∧ t.st = s.reg x ∧ t.dt = s.dt ∧
    t.pc = s.pc + 2#16 ∧ OnlyTimers s t)

/-- R181 (D22): after an FX15, FX07 reads the value written less the ticks between, and every value from 0 up to the value
written is read under some number of ticks. -/
def Obligations.DelayReadBackIsAnyValueUpToTheOneWritten : Prop :=
  (∀ (x y : RegIx) (n : Nat) (s : State), ∃ t u, exec (.opFX15 x) s = .next t ∧
    exec (.opFX07 y) (State.tick^[n] t) = .next u ∧ (u.reg y).toNat = (s.reg x).toNat - n) ∧
  (∀ (x y : RegIx) (s : State) (w : Nat), w ≤ (s.reg x).toNat → ∃ n t u, exec (.opFX15 x) s = .next t ∧
    exec (.opFX07 y) (State.tick^[n] t) = .next u ∧ (u.reg y).toNat = w)

/-! ### Loads and stores through I -/

/-- R191: FX33 stores the decimal digits of VX at I, I+1, I+2 and changes no other byte; where one of the three lies
outside memory it raises BoundsError.Memory with the first such address (R200), the three bytes unspecified. -/
def Obligations.BcdStoresThreeDigitsOrHalts : Prop :=
  (∀ (x : RegIx) (s : State), s.dataAddress ≤ 4093 → ∃ t, exec (.opFX33 x) s = .next t ∧
    (t.mem.load s.dataAddress).toNat = (s.reg x).toNat / 100 ∧
    (t.mem.load (s.dataAddress + 1)).toNat = (s.reg x).toNat / 10 % 10 ∧
    (t.mem.load (s.dataAddress + 2)).toNat = (s.reg x).toNat % 10 ∧
    t.i = s.i ∧ t.pc = s.pc + 2#16 ∧ OnlyBytesAndIndex s.dataAddress 3 s t) ∧
  (∀ (x : RegIx) (s : State), 4093 < s.dataAddress → ∃ t, exec (.opFX33 x) s = .next t ∧
    t.halted = true ∧ t.cause = .memory ∧ t.info.toNat = max s.dataAddress 4096 ∧ t.pc = s.pc ∧ t.i = s.i ∧
    SameRegs [] s t ∧ SameMemoryOutside s.dataAddress 3 s t ∧ SameStack s t ∧ SameDisplay s t ∧ SameTimers s t ∧
    t.keys = s.keys ∧ t.schedule = s.schedule ∧ t.driver = s.driver)

/-- R192: FX55 stores V0 to VX at I upward and I ends at I + X + 1; where a byte lies outside memory it raises
BoundsError.Memory with the first such address (R200), the target bytes and I unspecified. -/
def Obligations.StoreCopiesV0ToVxAndAdvancesIOrHalts : Prop :=
  (∀ (x : RegIx) (s : State), s.dataAddress + x.toNat ≤ 4095 → ∃ t, exec (.opFX55 x) s = .next t ∧
    (∀ r : RegIx, r.toNat ≤ x.toNat → t.mem.load (s.dataAddress + r.toNat) = s.reg r) ∧
    t.i.toNat = s.dataAddress + x.toNat + 1 ∧ t.pc = s.pc + 2#16 ∧
    OnlyBytesAndIndex s.dataAddress (x.toNat + 1) s t) ∧
  (∀ (x : RegIx) (s : State), 4095 < s.dataAddress + x.toNat → ∃ t, exec (.opFX55 x) s = .next t ∧
    t.halted = true ∧ t.cause = .memory ∧ t.info.toNat = max s.dataAddress 4096 ∧ t.pc = s.pc ∧
    SameRegs [] s t ∧ SameMemoryOutside s.dataAddress (x.toNat + 1) s t ∧ SameStack s t ∧ SameDisplay s t ∧
    SameTimers s t ∧ t.keys = s.keys ∧ t.schedule = s.schedule ∧ t.driver = s.driver)

/-- R193: FX65 loads V0 to VX from I upward and I ends at I + X + 1; registers above VX are unchanged; where a byte lies
outside memory it raises BoundsError.Memory with the first such address (R200), V0 to VX and I unspecified. -/
def Obligations.LoadFillsV0ToVxAndAdvancesIOrHalts : Prop :=
  (∀ (x : RegIx) (s : State), s.dataAddress + x.toNat ≤ 4095 → ∃ t, exec (.opFX65 x) s = .next t ∧
    (∀ r : RegIx, r.toNat ≤ x.toNat → t.reg r = s.mem.load (s.dataAddress + r.toNat)) ∧
    t.i.toNat = s.dataAddress + x.toNat + 1 ∧ t.pc = s.pc + 2#16 ∧ OnlyRegsUpToAndIndex x s t) ∧
  (∀ (x : RegIx) (s : State), 4095 < s.dataAddress + x.toNat → ∃ t, exec (.opFX65 x) s = .next t ∧
    t.halted = true ∧ t.cause = .memory ∧ t.info.toNat = max s.dataAddress 4096 ∧ t.pc = s.pc ∧
    (∀ r : RegIx, x.toNat < r.toNat → t.reg r = s.reg r) ∧ SameMemory s t ∧ SameStack s t ∧ SameDisplay s t ∧
    SameTimers s t ∧ t.keys = s.keys ∧ t.schedule = s.schedule ∧ t.driver = s.driver)

/-- R193, "Inverse of FX55": from any state with the stored memory and the old I, FX65 restores V0 to VX and gives the
I that FX55 gave. -/
def Obligations.LoadUndoesStore : Prop :=
  ∀ (x : RegIx) (s : State), s.dataAddress + x.toNat ≤ 4095 → ∃ t, exec (.opFX55 x) s = .next t ∧
    ∀ u : State, SameMemory t u → u.i = s.i → ∃ w, exec (.opFX65 x) u = .next w ∧ w.i = t.i ∧
      ∀ r : RegIx, r.toNat ≤ x.toNat → w.reg r = s.reg r

/-- R62: self-modifying code is exact: two bytes an FX55 stored are the word a later fetch over them reads. -/
def Obligations.StoredBytesAreWhatTheNextFetchReads : Prop :=
  ∀ (x : RegIx) (s : State), s.dataAddress + x.toNat ≤ 4095 → ∃ t, exec (.opFX55 x) s = .next t ∧
    ∀ (u : State) (r r' : RegIx), SameMemory t u → r'.toNat = r.toNat + 1 → r'.toNat ≤ x.toNat →
      u.pc.toNat = s.dataAddress + r.toNat → u.fetchWord = some (opcodeOf (s.reg r) (s.reg r'))
end

