-- ==== Sys2Proof/Laws/State.lean ====
section
/-! SUPPORT. One lemma per field per update of State, true by rfl, so that no later proof unfolds a record update; then what
reading a register or a pixel gives after a write. -/

namespace Sys2Proof.Machine

variable (s : State)

/-! `setReg` -/

@[simp] theorem State.setReg_v (x : RegIx) (b : Byte) : (s.setReg x b).v = s.v.set x.toNat b x.isLt := rfl
@[simp] theorem State.setReg_pc (x : RegIx) (b : Byte) : (s.setReg x b).pc = s.pc := rfl
@[simp] theorem State.setReg_i (x : RegIx) (b : Byte) : (s.setReg x b).i = s.i := rfl
@[simp] theorem State.setReg_stk (x : RegIx) (b : Byte) : (s.setReg x b).stk = s.stk := rfl
@[simp] theorem State.setReg_sp (x : RegIx) (b : Byte) : (s.setReg x b).sp = s.sp := rfl
@[simp] theorem State.setReg_dt (x : RegIx) (b : Byte) : (s.setReg x b).dt = s.dt := rfl
@[simp] theorem State.setReg_st (x : RegIx) (b : Byte) : (s.setReg x b).st = s.st := rfl
@[simp] theorem State.setReg_fb (x : RegIx) (b : Byte) : (s.setReg x b).fb = s.fb := rfl
@[simp] theorem State.setReg_dirty (x : RegIx) (b : Byte) : (s.setReg x b).dirty = s.dirty := rfl
@[simp] theorem State.setReg_keys (x : RegIx) (b : Byte) : (s.setReg x b).keys = s.keys := rfl
@[simp] theorem State.setReg_halted (x : RegIx) (b : Byte) : (s.setReg x b).halted = s.halted := rfl
@[simp] theorem State.setReg_cause (x : RegIx) (b : Byte) : (s.setReg x b).cause = s.cause := rfl
@[simp] theorem State.setReg_info (x : RegIx) (b : Byte) : (s.setReg x b).info = s.info := rfl
@[simp] theorem State.setReg_mem (x : RegIx) (b : Byte) : (s.setReg x b).mem = s.mem := rfl
@[simp] theorem State.setReg_schedule (x : RegIx) (b : Byte) : (s.setReg x b).schedule = s.schedule := rfl
@[simp] theorem State.setReg_driver (x : RegIx) (b : Byte) : (s.setReg x b).driver = s.driver := rfl
@[simp] theorem State.setReg_freeIx (x : RegIx) (b : Byte) : (s.setReg x b).freeIx = s.freeIx := rfl

/-! `setPc` -/

@[simp] theorem State.setPc_v (w : Word) : (s.setPc w).v = s.v := rfl
@[simp] theorem State.setPc_pc (w : Word) : (s.setPc w).pc = w := rfl
@[simp] theorem State.setPc_i (w : Word) : (s.setPc w).i = s.i := rfl
@[simp] theorem State.setPc_stk (w : Word) : (s.setPc w).stk = s.stk := rfl
@[simp] theorem State.setPc_sp (w : Word) : (s.setPc w).sp = s.sp := rfl
@[simp] theorem State.setPc_dt (w : Word) : (s.setPc w).dt = s.dt := rfl
@[simp] theorem State.setPc_st (w : Word) : (s.setPc w).st = s.st := rfl
@[simp] theorem State.setPc_fb (w : Word) : (s.setPc w).fb = s.fb := rfl
@[simp] theorem State.setPc_dirty (w : Word) : (s.setPc w).dirty = s.dirty := rfl
@[simp] theorem State.setPc_keys (w : Word) : (s.setPc w).keys = s.keys := rfl
@[simp] theorem State.setPc_halted (w : Word) : (s.setPc w).halted = s.halted := rfl
@[simp] theorem State.setPc_cause (w : Word) : (s.setPc w).cause = s.cause := rfl
@[simp] theorem State.setPc_info (w : Word) : (s.setPc w).info = s.info := rfl
@[simp] theorem State.setPc_mem (w : Word) : (s.setPc w).mem = s.mem := rfl
@[simp] theorem State.setPc_schedule (w : Word) : (s.setPc w).schedule = s.schedule := rfl
@[simp] theorem State.setPc_driver (w : Word) : (s.setPc w).driver = s.driver := rfl
@[simp] theorem State.setPc_freeIx (w : Word) : (s.setPc w).freeIx = s.freeIx := rfl

/-! `advance` -/

@[simp] theorem State.advance_v : (s.advance).v = s.v := rfl
@[simp] theorem State.advance_pc : (s.advance).pc = s.pc + 2#16 := rfl
@[simp] theorem State.advance_i : (s.advance).i = s.i := rfl
@[simp] theorem State.advance_stk : (s.advance).stk = s.stk := rfl
@[simp] theorem State.advance_sp : (s.advance).sp = s.sp := rfl
@[simp] theorem State.advance_dt : (s.advance).dt = s.dt := rfl
@[simp] theorem State.advance_st : (s.advance).st = s.st := rfl
@[simp] theorem State.advance_fb : (s.advance).fb = s.fb := rfl
@[simp] theorem State.advance_dirty : (s.advance).dirty = s.dirty := rfl
@[simp] theorem State.advance_keys : (s.advance).keys = s.keys := rfl
@[simp] theorem State.advance_halted : (s.advance).halted = s.halted := rfl
@[simp] theorem State.advance_cause : (s.advance).cause = s.cause := rfl
@[simp] theorem State.advance_info : (s.advance).info = s.info := rfl
@[simp] theorem State.advance_mem : (s.advance).mem = s.mem := rfl
@[simp] theorem State.advance_schedule : (s.advance).schedule = s.schedule := rfl
@[simp] theorem State.advance_driver : (s.advance).driver = s.driver := rfl
@[simp] theorem State.advance_freeIx : (s.advance).freeIx = s.freeIx := rfl

/-! `skipIf` -/

@[simp] theorem State.skipIf_v (c : Bool) : (s.skipIf c).v = s.v := rfl
@[simp] theorem State.skipIf_pc (c : Bool) : (s.skipIf c).pc = if c then s.pc + 4#16 else s.pc + 2#16 := rfl
@[simp] theorem State.skipIf_i (c : Bool) : (s.skipIf c).i = s.i := rfl
@[simp] theorem State.skipIf_stk (c : Bool) : (s.skipIf c).stk = s.stk := rfl
@[simp] theorem State.skipIf_sp (c : Bool) : (s.skipIf c).sp = s.sp := rfl
@[simp] theorem State.skipIf_dt (c : Bool) : (s.skipIf c).dt = s.dt := rfl
@[simp] theorem State.skipIf_st (c : Bool) : (s.skipIf c).st = s.st := rfl
@[simp] theorem State.skipIf_fb (c : Bool) : (s.skipIf c).fb = s.fb := rfl
@[simp] theorem State.skipIf_dirty (c : Bool) : (s.skipIf c).dirty = s.dirty := rfl
@[simp] theorem State.skipIf_keys (c : Bool) : (s.skipIf c).keys = s.keys := rfl
@[simp] theorem State.skipIf_halted (c : Bool) : (s.skipIf c).halted = s.halted := rfl
@[simp] theorem State.skipIf_cause (c : Bool) : (s.skipIf c).cause = s.cause := rfl
@[simp] theorem State.skipIf_info (c : Bool) : (s.skipIf c).info = s.info := rfl
@[simp] theorem State.skipIf_mem (c : Bool) : (s.skipIf c).mem = s.mem := rfl
@[simp] theorem State.skipIf_schedule (c : Bool) : (s.skipIf c).schedule = s.schedule := rfl
@[simp] theorem State.skipIf_driver (c : Bool) : (s.skipIf c).driver = s.driver := rfl
@[simp] theorem State.skipIf_freeIx (c : Bool) : (s.skipIf c).freeIx = s.freeIx := rfl

/-! `setI` -/

@[simp] theorem State.setI_v (w : Word) : (s.setI w).v = s.v := rfl
@[simp] theorem State.setI_pc (w : Word) : (s.setI w).pc = s.pc := rfl
@[simp] theorem State.setI_i (w : Word) : (s.setI w).i = w := rfl
@[simp] theorem State.setI_stk (w : Word) : (s.setI w).stk = s.stk := rfl
@[simp] theorem State.setI_sp (w : Word) : (s.setI w).sp = s.sp := rfl
@[simp] theorem State.setI_dt (w : Word) : (s.setI w).dt = s.dt := rfl
@[simp] theorem State.setI_st (w : Word) : (s.setI w).st = s.st := rfl
@[simp] theorem State.setI_fb (w : Word) : (s.setI w).fb = s.fb := rfl
@[simp] theorem State.setI_dirty (w : Word) : (s.setI w).dirty = s.dirty := rfl
@[simp] theorem State.setI_keys (w : Word) : (s.setI w).keys = s.keys := rfl
@[simp] theorem State.setI_halted (w : Word) : (s.setI w).halted = s.halted := rfl
@[simp] theorem State.setI_cause (w : Word) : (s.setI w).cause = s.cause := rfl
@[simp] theorem State.setI_info (w : Word) : (s.setI w).info = s.info := rfl
@[simp] theorem State.setI_mem (w : Word) : (s.setI w).mem = s.mem := rfl
@[simp] theorem State.setI_schedule (w : Word) : (s.setI w).schedule = s.schedule := rfl
@[simp] theorem State.setI_driver (w : Word) : (s.setI w).driver = s.driver := rfl
@[simp] theorem State.setI_freeIx (w : Word) : (s.setI w).freeIx = s.freeIx := rfl

/-! `setMem` -/

@[simp] theorem State.setMem_v (m : Memory) : (s.setMem m).v = s.v := rfl
@[simp] theorem State.setMem_pc (m : Memory) : (s.setMem m).pc = s.pc := rfl
@[simp] theorem State.setMem_i (m : Memory) : (s.setMem m).i = s.i := rfl
@[simp] theorem State.setMem_stk (m : Memory) : (s.setMem m).stk = s.stk := rfl
@[simp] theorem State.setMem_sp (m : Memory) : (s.setMem m).sp = s.sp := rfl
@[simp] theorem State.setMem_dt (m : Memory) : (s.setMem m).dt = s.dt := rfl
@[simp] theorem State.setMem_st (m : Memory) : (s.setMem m).st = s.st := rfl
@[simp] theorem State.setMem_fb (m : Memory) : (s.setMem m).fb = s.fb := rfl
@[simp] theorem State.setMem_dirty (m : Memory) : (s.setMem m).dirty = s.dirty := rfl
@[simp] theorem State.setMem_keys (m : Memory) : (s.setMem m).keys = s.keys := rfl
@[simp] theorem State.setMem_halted (m : Memory) : (s.setMem m).halted = s.halted := rfl
@[simp] theorem State.setMem_cause (m : Memory) : (s.setMem m).cause = s.cause := rfl
@[simp] theorem State.setMem_info (m : Memory) : (s.setMem m).info = s.info := rfl
@[simp] theorem State.setMem_mem (m : Memory) : (s.setMem m).mem = m := rfl
@[simp] theorem State.setMem_schedule (m : Memory) : (s.setMem m).schedule = s.schedule := rfl
@[simp] theorem State.setMem_driver (m : Memory) : (s.setMem m).driver = s.driver := rfl
@[simp] theorem State.setMem_freeIx (m : Memory) : (s.setMem m).freeIx = s.freeIx := rfl

/-! `setDt` -/

@[simp] theorem State.setDt_v (b : Byte) : (s.setDt b).v = s.v := rfl
@[simp] theorem State.setDt_pc (b : Byte) : (s.setDt b).pc = s.pc := rfl
@[simp] theorem State.setDt_i (b : Byte) : (s.setDt b).i = s.i := rfl
@[simp] theorem State.setDt_stk (b : Byte) : (s.setDt b).stk = s.stk := rfl
@[simp] theorem State.setDt_sp (b : Byte) : (s.setDt b).sp = s.sp := rfl
@[simp] theorem State.setDt_dt (b : Byte) : (s.setDt b).dt = b := rfl
@[simp] theorem State.setDt_st (b : Byte) : (s.setDt b).st = s.st := rfl
@[simp] theorem State.setDt_fb (b : Byte) : (s.setDt b).fb = s.fb := rfl
@[simp] theorem State.setDt_dirty (b : Byte) : (s.setDt b).dirty = s.dirty := rfl
@[simp] theorem State.setDt_keys (b : Byte) : (s.setDt b).keys = s.keys := rfl
@[simp] theorem State.setDt_halted (b : Byte) : (s.setDt b).halted = s.halted := rfl
@[simp] theorem State.setDt_cause (b : Byte) : (s.setDt b).cause = s.cause := rfl
@[simp] theorem State.setDt_info (b : Byte) : (s.setDt b).info = s.info := rfl
@[simp] theorem State.setDt_mem (b : Byte) : (s.setDt b).mem = s.mem := rfl
@[simp] theorem State.setDt_schedule (b : Byte) : (s.setDt b).schedule = s.schedule := rfl
@[simp] theorem State.setDt_driver (b : Byte) : (s.setDt b).driver = s.driver := rfl
@[simp] theorem State.setDt_freeIx (b : Byte) : (s.setDt b).freeIx = s.freeIx := rfl

/-! `setSt` -/

@[simp] theorem State.setSt_v (b : Byte) : (s.setSt b).v = s.v := rfl
@[simp] theorem State.setSt_pc (b : Byte) : (s.setSt b).pc = s.pc := rfl
@[simp] theorem State.setSt_i (b : Byte) : (s.setSt b).i = s.i := rfl
@[simp] theorem State.setSt_stk (b : Byte) : (s.setSt b).stk = s.stk := rfl
@[simp] theorem State.setSt_sp (b : Byte) : (s.setSt b).sp = s.sp := rfl
@[simp] theorem State.setSt_dt (b : Byte) : (s.setSt b).dt = s.dt := rfl
@[simp] theorem State.setSt_st (b : Byte) : (s.setSt b).st = b := rfl
@[simp] theorem State.setSt_fb (b : Byte) : (s.setSt b).fb = s.fb := rfl
@[simp] theorem State.setSt_dirty (b : Byte) : (s.setSt b).dirty = s.dirty := rfl
@[simp] theorem State.setSt_keys (b : Byte) : (s.setSt b).keys = s.keys := rfl
@[simp] theorem State.setSt_halted (b : Byte) : (s.setSt b).halted = s.halted := rfl
@[simp] theorem State.setSt_cause (b : Byte) : (s.setSt b).cause = s.cause := rfl
@[simp] theorem State.setSt_info (b : Byte) : (s.setSt b).info = s.info := rfl
@[simp] theorem State.setSt_mem (b : Byte) : (s.setSt b).mem = s.mem := rfl
@[simp] theorem State.setSt_schedule (b : Byte) : (s.setSt b).schedule = s.schedule := rfl
@[simp] theorem State.setSt_driver (b : Byte) : (s.setSt b).driver = s.driver := rfl
@[simp] theorem State.setSt_freeIx (b : Byte) : (s.setSt b).freeIx = s.freeIx := rfl

/-! `setDisplay` -/

@[simp] theorem State.setDisplay_v (f : Framebuffer) : (s.setDisplay f).v = s.v := rfl
@[simp] theorem State.setDisplay_pc (f : Framebuffer) : (s.setDisplay f).pc = s.pc := rfl
@[simp] theorem State.setDisplay_i (f : Framebuffer) : (s.setDisplay f).i = s.i := rfl
@[simp] theorem State.setDisplay_stk (f : Framebuffer) : (s.setDisplay f).stk = s.stk := rfl
@[simp] theorem State.setDisplay_sp (f : Framebuffer) : (s.setDisplay f).sp = s.sp := rfl
@[simp] theorem State.setDisplay_dt (f : Framebuffer) : (s.setDisplay f).dt = s.dt := rfl
@[simp] theorem State.setDisplay_st (f : Framebuffer) : (s.setDisplay f).st = s.st := rfl
@[simp] theorem State.setDisplay_fb (f : Framebuffer) : (s.setDisplay f).fb = f := rfl
@[simp] theorem State.setDisplay_dirty (f : Framebuffer) : (s.setDisplay f).dirty = true := rfl
@[simp] theorem State.setDisplay_keys (f : Framebuffer) : (s.setDisplay f).keys = s.keys := rfl
@[simp] theorem State.setDisplay_halted (f : Framebuffer) : (s.setDisplay f).halted = s.halted := rfl
@[simp] theorem State.setDisplay_cause (f : Framebuffer) : (s.setDisplay f).cause = s.cause := rfl
@[simp] theorem State.setDisplay_info (f : Framebuffer) : (s.setDisplay f).info = s.info := rfl
@[simp] theorem State.setDisplay_mem (f : Framebuffer) : (s.setDisplay f).mem = s.mem := rfl
@[simp] theorem State.setDisplay_schedule (f : Framebuffer) : (s.setDisplay f).schedule = s.schedule := rfl
@[simp] theorem State.setDisplay_driver (f : Framebuffer) : (s.setDisplay f).driver = s.driver := rfl
@[simp] theorem State.setDisplay_freeIx (f : Framebuffer) : (s.setDisplay f).freeIx = s.freeIx := rfl

/-! `raise` -/

@[simp] theorem State.raise_v (c : Cause) (w : Word) : (s.raise c w).v = s.v := rfl
@[simp] theorem State.raise_pc (c : Cause) (w : Word) : (s.raise c w).pc = s.pc := rfl
@[simp] theorem State.raise_i (c : Cause) (w : Word) : (s.raise c w).i = s.i := rfl
@[simp] theorem State.raise_stk (c : Cause) (w : Word) : (s.raise c w).stk = s.stk := rfl
@[simp] theorem State.raise_sp (c : Cause) (w : Word) : (s.raise c w).sp = s.sp := rfl
@[simp] theorem State.raise_dt (c : Cause) (w : Word) : (s.raise c w).dt = s.dt := rfl
@[simp] theorem State.raise_st (c : Cause) (w : Word) : (s.raise c w).st = s.st := rfl
@[simp] theorem State.raise_fb (c : Cause) (w : Word) : (s.raise c w).fb = s.fb := rfl
@[simp] theorem State.raise_dirty (c : Cause) (w : Word) : (s.raise c w).dirty = s.dirty := rfl
@[simp] theorem State.raise_keys (c : Cause) (w : Word) : (s.raise c w).keys = s.keys := rfl
@[simp] theorem State.raise_halted (c : Cause) (w : Word) : (s.raise c w).halted = true := rfl
@[simp] theorem State.raise_cause (c : Cause) (w : Word) : (s.raise c w).cause = c := rfl
@[simp] theorem State.raise_info (c : Cause) (w : Word) : (s.raise c w).info = w := rfl
@[simp] theorem State.raise_mem (c : Cause) (w : Word) : (s.raise c w).mem = s.mem := rfl
@[simp] theorem State.raise_schedule (c : Cause) (w : Word) : (s.raise c w).schedule = s.schedule := rfl
@[simp] theorem State.raise_driver (c : Cause) (w : Word) : (s.raise c w).driver = s.driver := rfl
@[simp] theorem State.raise_freeIx (c : Cause) (w : Word) : (s.raise c w).freeIx = s.freeIx := rfl

/-! `tick` -/

@[simp] theorem State.tick_v : (s.tick).v = s.v := rfl
@[simp] theorem State.tick_pc : (s.tick).pc = s.pc := rfl
@[simp] theorem State.tick_i : (s.tick).i = s.i := rfl
@[simp] theorem State.tick_stk : (s.tick).stk = s.stk := rfl
@[simp] theorem State.tick_sp : (s.tick).sp = s.sp := rfl
@[simp] theorem State.tick_dt : (s.tick).dt = countDown s.dt := rfl
@[simp] theorem State.tick_st : (s.tick).st = countDown s.st := rfl
@[simp] theorem State.tick_fb : (s.tick).fb = s.fb := rfl
@[simp] theorem State.tick_dirty : (s.tick).dirty = s.dirty := rfl
@[simp] theorem State.tick_keys : (s.tick).keys = s.keys := rfl
@[simp] theorem State.tick_halted : (s.tick).halted = s.halted := rfl
@[simp] theorem State.tick_cause : (s.tick).cause = s.cause := rfl
@[simp] theorem State.tick_info : (s.tick).info = s.info := rfl
@[simp] theorem State.tick_mem : (s.tick).mem = s.mem := rfl
@[simp] theorem State.tick_schedule : (s.tick).schedule = s.schedule := rfl
@[simp] theorem State.tick_driver : (s.tick).driver = s.driver := rfl
@[simp] theorem State.tick_freeIx : (s.tick).freeIx = s.freeIx := rfl

/-! `keyWrite` -/

@[simp] theorem State.keyWrite_v (k : Word) : (s.keyWrite k).v = s.v := rfl
@[simp] theorem State.keyWrite_pc (k : Word) : (s.keyWrite k).pc = s.pc := rfl
@[simp] theorem State.keyWrite_i (k : Word) : (s.keyWrite k).i = s.i := rfl
@[simp] theorem State.keyWrite_stk (k : Word) : (s.keyWrite k).stk = s.stk := rfl
@[simp] theorem State.keyWrite_sp (k : Word) : (s.keyWrite k).sp = s.sp := rfl
@[simp] theorem State.keyWrite_dt (k : Word) : (s.keyWrite k).dt = s.dt := rfl
@[simp] theorem State.keyWrite_st (k : Word) : (s.keyWrite k).st = s.st := rfl
@[simp] theorem State.keyWrite_fb (k : Word) : (s.keyWrite k).fb = s.fb := rfl
@[simp] theorem State.keyWrite_dirty (k : Word) : (s.keyWrite k).dirty = s.dirty := rfl
@[simp] theorem State.keyWrite_keys (k : Word) : (s.keyWrite k).keys = k := rfl
@[simp] theorem State.keyWrite_halted (k : Word) : (s.keyWrite k).halted = s.halted := rfl
@[simp] theorem State.keyWrite_cause (k : Word) : (s.keyWrite k).cause = s.cause := rfl
@[simp] theorem State.keyWrite_info (k : Word) : (s.keyWrite k).info = s.info := rfl
@[simp] theorem State.keyWrite_mem (k : Word) : (s.keyWrite k).mem = s.mem := rfl
@[simp] theorem State.keyWrite_schedule (k : Word) : (s.keyWrite k).schedule = s.schedule := rfl
@[simp] theorem State.keyWrite_driver (k : Word) : (s.keyWrite k).driver = s.driver := rfl
@[simp] theorem State.keyWrite_freeIx (k : Word) : (s.keyWrite k).freeIx = s.freeIx := rfl

/-! `setFlag`, which is `setReg` of VF -/

@[simp] theorem State.setFlag_pc (c : Bool) : (s.setFlag c).pc = s.pc := rfl
@[simp] theorem State.setFlag_i (c : Bool) : (s.setFlag c).i = s.i := rfl
@[simp] theorem State.setFlag_stk (c : Bool) : (s.setFlag c).stk = s.stk := rfl
@[simp] theorem State.setFlag_sp (c : Bool) : (s.setFlag c).sp = s.sp := rfl
@[simp] theorem State.setFlag_dt (c : Bool) : (s.setFlag c).dt = s.dt := rfl
@[simp] theorem State.setFlag_st (c : Bool) : (s.setFlag c).st = s.st := rfl
@[simp] theorem State.setFlag_fb (c : Bool) : (s.setFlag c).fb = s.fb := rfl
@[simp] theorem State.setFlag_dirty (c : Bool) : (s.setFlag c).dirty = s.dirty := rfl
@[simp] theorem State.setFlag_keys (c : Bool) : (s.setFlag c).keys = s.keys := rfl
@[simp] theorem State.setFlag_halted (c : Bool) : (s.setFlag c).halted = s.halted := rfl
@[simp] theorem State.setFlag_cause (c : Bool) : (s.setFlag c).cause = s.cause := rfl
@[simp] theorem State.setFlag_info (c : Bool) : (s.setFlag c).info = s.info := rfl
@[simp] theorem State.setFlag_mem (c : Bool) : (s.setFlag c).mem = s.mem := rfl
@[simp] theorem State.setFlag_schedule (c : Bool) : (s.setFlag c).schedule = s.schedule := rfl
@[simp] theorem State.setFlag_driver (c : Bool) : (s.setFlag c).driver = s.driver := rfl
@[simp] theorem State.setFlag_freeIx (c : Bool) : (s.setFlag c).freeIx = s.freeIx := rfl

/-! `setRegs` -/

@[simp] theorem State.setRegs_pc (bs : List Byte) : (s.setRegs bs).pc = s.pc := rfl
@[simp] theorem State.setRegs_i (bs : List Byte) : (s.setRegs bs).i = s.i := rfl
@[simp] theorem State.setRegs_stk (bs : List Byte) : (s.setRegs bs).stk = s.stk := rfl
@[simp] theorem State.setRegs_sp (bs : List Byte) : (s.setRegs bs).sp = s.sp := rfl
@[simp] theorem State.setRegs_dt (bs : List Byte) : (s.setRegs bs).dt = s.dt := rfl
@[simp] theorem State.setRegs_st (bs : List Byte) : (s.setRegs bs).st = s.st := rfl
@[simp] theorem State.setRegs_fb (bs : List Byte) : (s.setRegs bs).fb = s.fb := rfl
@[simp] theorem State.setRegs_dirty (bs : List Byte) : (s.setRegs bs).dirty = s.dirty := rfl
@[simp] theorem State.setRegs_keys (bs : List Byte) : (s.setRegs bs).keys = s.keys := rfl
@[simp] theorem State.setRegs_halted (bs : List Byte) : (s.setRegs bs).halted = s.halted := rfl
@[simp] theorem State.setRegs_cause (bs : List Byte) : (s.setRegs bs).cause = s.cause := rfl
@[simp] theorem State.setRegs_info (bs : List Byte) : (s.setRegs bs).info = s.info := rfl
@[simp] theorem State.setRegs_mem (bs : List Byte) : (s.setRegs bs).mem = s.mem := rfl
@[simp] theorem State.setRegs_schedule (bs : List Byte) : (s.setRegs bs).schedule = s.schedule := rfl
@[simp] theorem State.setRegs_driver (bs : List Byte) : (s.setRegs bs).driver = s.driver := rfl
@[simp] theorem State.setRegs_freeIx (bs : List Byte) : (s.setRegs bs).freeIx = s.freeIx := rfl

/-! `havocBytes` -/

@[simp] theorem State.havocBytes_v (n : Nat) : (s.havocBytes n).v = s.v := rfl
@[simp] theorem State.havocBytes_pc (n : Nat) : (s.havocBytes n).pc = s.pc := rfl
@[simp] theorem State.havocBytes_i (n : Nat) : (s.havocBytes n).i = s.i := rfl
@[simp] theorem State.havocBytes_stk (n : Nat) : (s.havocBytes n).stk = s.stk := rfl
@[simp] theorem State.havocBytes_sp (n : Nat) : (s.havocBytes n).sp = s.sp := rfl
@[simp] theorem State.havocBytes_dt (n : Nat) : (s.havocBytes n).dt = s.dt := rfl
@[simp] theorem State.havocBytes_st (n : Nat) : (s.havocBytes n).st = s.st := rfl
@[simp] theorem State.havocBytes_fb (n : Nat) : (s.havocBytes n).fb = s.fb := rfl
@[simp] theorem State.havocBytes_dirty (n : Nat) : (s.havocBytes n).dirty = s.dirty := rfl
@[simp] theorem State.havocBytes_keys (n : Nat) : (s.havocBytes n).keys = s.keys := rfl
@[simp] theorem State.havocBytes_halted (n : Nat) : (s.havocBytes n).halted = s.halted := rfl
@[simp] theorem State.havocBytes_cause (n : Nat) : (s.havocBytes n).cause = s.cause := rfl
@[simp] theorem State.havocBytes_info (n : Nat) : (s.havocBytes n).info = s.info := rfl
@[simp] theorem State.havocBytes_schedule (n : Nat) : (s.havocBytes n).schedule = s.schedule := rfl
@[simp] theorem State.havocBytes_driver (n : Nat) : (s.havocBytes n).driver = s.driver := rfl

/-! `havocRegs` -/

@[simp] theorem State.havocRegs_pc (x : RegIx) : (s.havocRegs x).pc = s.pc := rfl
@[simp] theorem State.havocRegs_i (x : RegIx) : (s.havocRegs x).i = s.i := rfl
@[simp] theorem State.havocRegs_stk (x : RegIx) : (s.havocRegs x).stk = s.stk := rfl
@[simp] theorem State.havocRegs_sp (x : RegIx) : (s.havocRegs x).sp = s.sp := rfl
@[simp] theorem State.havocRegs_dt (x : RegIx) : (s.havocRegs x).dt = s.dt := rfl
@[simp] theorem State.havocRegs_st (x : RegIx) : (s.havocRegs x).st = s.st := rfl
@[simp] theorem State.havocRegs_fb (x : RegIx) : (s.havocRegs x).fb = s.fb := rfl
@[simp] theorem State.havocRegs_dirty (x : RegIx) : (s.havocRegs x).dirty = s.dirty := rfl
@[simp] theorem State.havocRegs_keys (x : RegIx) : (s.havocRegs x).keys = s.keys := rfl
@[simp] theorem State.havocRegs_halted (x : RegIx) : (s.havocRegs x).halted = s.halted := rfl
@[simp] theorem State.havocRegs_cause (x : RegIx) : (s.havocRegs x).cause = s.cause := rfl
@[simp] theorem State.havocRegs_info (x : RegIx) : (s.havocRegs x).info = s.info := rfl
@[simp] theorem State.havocRegs_mem (x : RegIx) : (s.havocRegs x).mem = s.mem := rfl
@[simp] theorem State.havocRegs_schedule (x : RegIx) : (s.havocRegs x).schedule = s.schedule := rfl
@[simp] theorem State.havocRegs_driver (x : RegIx) : (s.havocRegs x).driver = s.driver := rfl

/-! `havocI` -/

@[simp] theorem State.havocI_v : (s.havocI).v = s.v := rfl
@[simp] theorem State.havocI_pc : (s.havocI).pc = s.pc := rfl
@[simp] theorem State.havocI_stk : (s.havocI).stk = s.stk := rfl
@[simp] theorem State.havocI_sp : (s.havocI).sp = s.sp := rfl
@[simp] theorem State.havocI_dt : (s.havocI).dt = s.dt := rfl
@[simp] theorem State.havocI_st : (s.havocI).st = s.st := rfl
@[simp] theorem State.havocI_fb : (s.havocI).fb = s.fb := rfl
@[simp] theorem State.havocI_dirty : (s.havocI).dirty = s.dirty := rfl
@[simp] theorem State.havocI_keys : (s.havocI).keys = s.keys := rfl
@[simp] theorem State.havocI_halted : (s.havocI).halted = s.halted := rfl
@[simp] theorem State.havocI_cause : (s.havocI).cause = s.cause := rfl
@[simp] theorem State.havocI_info : (s.havocI).info = s.info := rfl
@[simp] theorem State.havocI_mem : (s.havocI).mem = s.mem := rfl
@[simp] theorem State.havocI_schedule : (s.havocI).schedule = s.schedule := rfl
@[simp] theorem State.havocI_driver : (s.havocI).driver = s.driver := rfl

/-! ### Reading a register -/

/-- Every update that leaves the register file alone leaves every register alone. -/
theorem State.reg_congr {s t : State} (h : t.v = s.v) (x : RegIx) : t.reg x = s.reg x := by simp [State.reg, h]

/-- A register reads as written; every other register as before. -/
theorem State.reg_setReg (x y : RegIx) (b : Byte) : (s.setReg x b).reg y = if x = y then b else s.reg y := by
  simp only [State.reg, State.setReg, Vector.getElem_set, BitVec.toNat_inj]

@[simp] theorem State.reg_setReg_same (x : RegIx) (b : Byte) : (s.setReg x b).reg x = b := by
  simp [State.reg_setReg]

theorem State.reg_setReg_ne {x y : RegIx} (h : x ≠ y) (b : Byte) : (s.setReg x b).reg y = s.reg y := by
  simp [State.reg_setReg, h]

theorem State.reg_setFlag (c : Bool) (y : RegIx) :
    (s.setFlag c).reg y = if regF = y then (if c then 1#8 else 0#8) else s.reg y := s.reg_setReg regF y _

@[simp] theorem State.reg_setFlag_same (c : Bool) : (s.setFlag c).reg regF = if c then 1#8 else 0#8 := by
  simp [State.reg_setFlag]

/-- Writing bytes from index `k` on: register `j` takes byte `j - k` where there is one, else it keeps its value. -/
theorem RegFile.writeFrom_getElem (v : RegFile) (k : Nat) (bs : List Byte) (j : Nat) (hj : j < Config.nregs) :
    (v.writeFrom k bs)[j] = if k ≤ j then bs[j - k]?.getD v[j] else v[j] := by
  induction bs generalizing v k with
  | nil => simp [RegFile.writeFrom]
  | cons b bs ih =>
    simp only [RegFile.writeFrom, ih]
    rcases Nat.lt_trichotomy j k with h | h | h
    · have hk : (if h : k < Config.nregs then v.set k b h else v)[j] = v[j] := by
        split
        · simp [Vector.getElem_set]; omega
        · rfl
      rw [if_neg (by omega), if_neg (by omega), hk]
    · subst h
      simp [hj]
    · have hk : (if h : k < Config.nregs then v.set k b h else v)[j] = v[j] := by
        split
        · simp [Vector.getElem_set]; omega
        · rfl
      obtain ⟨d, rfl⟩ : ∃ d, j = k + 1 + d := ⟨j - (k + 1), by omega⟩
      rw [if_pos (by omega), if_pos (by omega), hk, show k + 1 + d - k = d + 1 by omega]
      simp

/-- `setRegs` writes V0 upward, one byte a register, and no other register. -/
theorem State.reg_setRegs (bs : List Byte) (y : RegIx) : (s.setRegs bs).reg y = bs[y.toNat]?.getD (s.reg y) := by
  simp [State.reg, State.setRegs, RegFile.writeFrom_getElem]

@[simp] theorem State.reg_setPc (w : Word) (r : RegIx) : (s.setPc w).reg r = s.reg r := rfl
@[simp] theorem State.reg_advance (r : RegIx) : (s.advance).reg r = s.reg r := rfl
@[simp] theorem State.reg_skipIf (c : Bool) (r : RegIx) : (s.skipIf c).reg r = s.reg r := rfl
@[simp] theorem State.reg_setI (w : Word) (r : RegIx) : (s.setI w).reg r = s.reg r := rfl
@[simp] theorem State.reg_setMem (m : Memory) (r : RegIx) : (s.setMem m).reg r = s.reg r := rfl
@[simp] theorem State.reg_setDt (b : Byte) (r : RegIx) : (s.setDt b).reg r = s.reg r := rfl
@[simp] theorem State.reg_setSt (b : Byte) (r : RegIx) : (s.setSt b).reg r = s.reg r := rfl
@[simp] theorem State.reg_setDisplay (f : Framebuffer) (r : RegIx) : (s.setDisplay f).reg r = s.reg r := rfl
@[simp] theorem State.reg_raise (c : Cause) (w : Word) (r : RegIx) : (s.raise c w).reg r = s.reg r := rfl
@[simp] theorem State.reg_tick (r : RegIx) : (s.tick).reg r = s.reg r := rfl
@[simp] theorem State.reg_keyWrite (k : Word) (r : RegIx) : (s.keyWrite k).reg r = s.reg r := rfl
@[simp] theorem State.reg_havocBytes (n : Nat) (r : RegIx) : (s.havocBytes n).reg r = s.reg r := rfl
@[simp] theorem State.reg_havocI (r : RegIx) : s.havocI.reg r = s.reg r := rfl

/-- A faulting FX65 leaves the registers above VX alone. -/
theorem State.reg_havocRegs_above {x y : RegIx} (h : x.toNat < y.toNat) : (s.havocRegs x).reg y = s.reg y := by
  have hn : (s.freeBytes (x.toNat + 1))[y.toNat]? = none := by simp [State.freeBytes]; omega
  have : (s.havocRegs x).reg y = (s.setRegs (s.freeBytes (x.toNat + 1))).reg y := rfl
  rw [this, State.reg_setRegs, hn, Option.getD_none]

/-! ### Reading a pixel -/

/-- A pixel reads as written; every other pixel as before. -/
theorem Framebuffer.pixel_setPixel (fb : Framebuffer) (y y' : Fin Config.dispH) (x x' : Fin Config.dispW) (b : Bool) :
    (fb.setPixel y x b).pixel y' x' = if y = y' ∧ x = x' then b else fb.pixel y' x' := by
  simp only [Framebuffer.pixel, Framebuffer.setPixel, Fin.getElem_fin, Vector.getElem_set, Fin.val_inj]
  by_cases hy : y = y'
  · subst hy
    simp [Vector.getElem_set, Fin.val_inj]
  · simp [hy]

@[simp] theorem Framebuffer.pixel_clear (y : Fin Config.dispH) (x : Fin Config.dispW) :
    Framebuffer.clear.pixel y x = false := by
  simp [Framebuffer.pixel, Framebuffer.clear]

end Sys2Proof.Machine
end

