-- ==== Sys2Proof/Laws/Memory.lean ====
section
/-! SUPPORT. What the memory operations do: a read after a write gives the value written and a write leaves every other
place alone, for every list of cells; and every operation keeps the canonical form `Memory.wf`. -/

namespace Sys2Proof.Machine

/-! ### Reads -/

theorem Memory.load_of_not_mem {m : Memory} {a : Nat} (h : ∀ c ∈ m, c.1 ≠ a) : m.load a = resetByte a := by
  induction m with
  | nil => rfl
  | cons c m ih =>
    have hc : c.1 ≠ a := h c (by simp)
    simp only [Memory.load, hc, if_false]
    exact ih fun d hd => h d (by simp [hd])

theorem Memory.load_erase_ne {m : Memory} {a b : Nat} (h : a ≠ b) : (m.erase a).load b = m.load b := by
  induction m with
  | nil => rfl
  | cons c m ih =>
    obtain ⟨k, d⟩ := c
    simp only [Memory.erase] at ih ⊢
    by_cases hk : k = a
    · subst hk
      simpa [Memory.load, h] using ih
    · simp [Memory.load, hk, ih]

theorem Memory.load_erase_same (m : Memory) (a : Nat) : (m.erase a).load a = resetByte a :=
  Memory.load_of_not_mem fun c hc => by simpa using (List.mem_filter.mp hc).2

theorem Memory.load_insert_ne {m : Memory} {a b : Nat} {x : Byte} (h : a ≠ b) :
    (Memory.insert a x m).load b = m.load b := by
  induction m with
  | nil => simp [Memory.insert, Memory.load, h]
  | cons c m ih =>
    obtain ⟨k, d⟩ := c
    by_cases hk : a < k
    · simp [Memory.insert, Memory.load, hk, h]
    · simp [Memory.insert, Memory.load, hk, ih]

theorem Memory.load_insert_same {m : Memory} {a : Nat} {x : Byte} (h : ∀ c ∈ m, c.1 ≠ a) :
    (Memory.insert a x m).load a = x := by
  induction m with
  | nil => simp [Memory.insert, Memory.load]
  | cons c m ih =>
    obtain ⟨k, d⟩ := c
    have hk : k ≠ a := h (k, d) (by simp)
    have ih' := ih fun e he => h e (by simp [he])
    by_cases hlt : a < k
    · simp [Memory.insert, Memory.load, hlt]
    · simp [Memory.insert, Memory.load, hlt, hk, ih']

/-- A byte reads as last written; every other byte as before (R56, R60). -/
theorem Memory.load_store (m : Memory) (a b : Nat) (x : Byte) :
    (m.store a x).load b = if a = b then x else m.load b := by
  unfold Memory.store
  by_cases hab : a = b
  · subst hab
    split
    · next hx => simp [Memory.load_erase_same, hx]
    · rw [if_pos rfl]
      exact Memory.load_insert_same fun c hc => by simpa using (List.mem_filter.mp hc).2
  · rw [if_neg hab]
    split
    · exact Memory.load_erase_ne hab
    · rw [Memory.load_insert_ne hab, Memory.load_erase_ne hab]

/-- A block of bytes reads as written, in ascending order; every byte outside it as before. -/
theorem Memory.load_storeBytes (m : Memory) (a b : Nat) (bs : List Byte) :
    (m.storeBytes a bs).load b = if a ≤ b then bs[b - a]?.getD (m.load b) else m.load b := by
  induction bs generalizing m a with
  | nil => simp [Memory.storeBytes]
  | cons x bs ih =>
    simp only [Memory.storeBytes, ih, Memory.load_store]
    rcases Nat.lt_trichotomy b a with h | h | h
    · rw [if_neg (by omega), if_neg (by omega), if_neg (by omega)]
    · subst h
      simp
    · obtain ⟨d, rfl⟩ : ∃ d, b = a + 1 + d := ⟨b - (a + 1), by omega⟩
      rw [if_pos (by omega), if_neg (by omega), if_pos (by omega), show a + 1 + d - a = d + 1 by omega]
      simp

/-- Bytes outside the block are left alone. -/
theorem Memory.load_storeBytes_outside {m : Memory} {a b : Nat} {bs : List Byte} (h : b < a ∨ a + bs.length ≤ b) :
    (m.storeBytes a bs).load b = m.load b := by
  rw [Memory.load_storeBytes]
  split
  · rw [List.getElem?_eq_none (by omega), Option.getD_none]
  · rfl

@[simp] theorem Memory.loadBytes_length (m : Memory) (a n : Nat) : (m.loadBytes a n).length = n := by
  simp [Memory.loadBytes]

theorem Memory.loadBytes_getElem? (m : Memory) (a n k : Nat) :
    (m.loadBytes a n)[k]? = if k < n then some (m.load (a + k)) else none := by
  by_cases h : k < n <;> simp [Memory.loadBytes, h]

/-! ### The canonical form -/

/-- Addresses rise strictly, as a `List.Pairwise`. -/
theorem Memory.rising_iff (m : Memory) : m.rising = true ↔ m.Pairwise (fun c d => c.1 < d.1) := by
  induction m with
  | nil => simp [Memory.rising]
  | cons c m ih =>
    cases m with
    | nil => simp [Memory.rising]
    | cons d m =>
      obtain ⟨a, x⟩ := c
      obtain ⟨b, y⟩ := d
      simp only [Memory.rising, Bool.and_eq_true, decide_eq_true_eq, ih]
      constructor
      · rintro ⟨hab, hp⟩
        refine List.pairwise_cons.mpr ⟨fun e he => ?_, hp⟩
        rcases List.mem_cons.mp he with rfl | he
        · exact hab
        · exact Nat.lt_trans hab ((List.pairwise_cons.mp hp).1 e he)
      · intro hp
        exact ⟨(List.pairwise_cons.mp hp).1 (b, y) (by simp), (List.pairwise_cons.mp hp).2⟩

/-- The canonical form, said of the cells. -/
theorem Memory.wf_iff (m : Memory) :
    m.wf = true ↔ m.Pairwise (fun c d => c.1 < d.1) ∧ ∀ c ∈ m, c.1 < Config.memSize ∧ c.2 ≠ resetByte c.1 := by
  simp [Memory.wf, Memory.rising_iff]

theorem Memory.wf_nil : Memory.wf [] = true := rfl

theorem Memory.mem_insert {m : Memory} {a : Nat} {x : Byte} {c : Host.Cell} (h : c ∈ Memory.insert a x m) :
    c = (a, x) ∨ c ∈ m := by
  induction m with
  | nil => simpa [Memory.insert] using h
  | cons d m ih =>
    obtain ⟨k, y⟩ := d
    by_cases hk : a < k
    · simpa [Memory.insert, hk] using h
    · simp only [Memory.insert, hk, if_false, List.mem_cons] at h
      rcases h with rfl | h
      · simp
      · rcases ih h with h | h <;> simp [h]

theorem Memory.insert_rising {m : Memory} {a : Nat} {x : Byte} (hne : ∀ c ∈ m, c.1 ≠ a)
    (h : m.Pairwise (fun c d => c.1 < d.1)) : (Memory.insert a x m).Pairwise (fun c d => c.1 < d.1) := by
  induction m with
  | nil => simp [Memory.insert]
  | cons c m ih =>
    obtain ⟨k, y⟩ := c
    have hk := hne (k, y) (by simp)
    obtain ⟨hlow, hp⟩ := List.pairwise_cons.mp h
    by_cases hlt : a < k
    · simp only [Memory.insert, hlt, if_true]
      refine List.pairwise_cons.mpr ⟨fun e he => ?_, h⟩
      rcases List.mem_cons.mp he with rfl | he
      · exact hlt
      · exact Nat.lt_trans hlt (hlow e he)
    · simp only [Memory.insert, hlt, if_false]
      refine List.pairwise_cons.mpr ⟨fun e he => ?_, ih (fun c hc => hne c (by simp [hc])) hp⟩
      rcases Memory.mem_insert he with rfl | he
      · simp only at hk ⊢; omega
      · exact hlow e he

/-- A byte write inside memory keeps the canonical form. -/
theorem Memory.store_wf {m : Memory} {a : Nat} {x : Byte} (h : m.wf = true) (ha : a < Config.memSize) :
    (m.store a x).wf = true := by
  rw [Memory.wf_iff] at h ⊢
  have herase : (m.erase a).Pairwise (fun c d => c.1 < d.1) := h.1.filter _
  have hmem : ∀ c ∈ m.erase a, c.1 ≠ a ∧ c ∈ m := fun c hc => by
    have := List.mem_filter.mp hc
    exact ⟨by simpa using this.2, this.1⟩
  unfold Memory.store
  split
  · exact ⟨herase, fun c hc => h.2 c (hmem c hc).2⟩
  · next hx =>
    refine ⟨Memory.insert_rising (fun c hc => (hmem c hc).1) herase, fun c hc => ?_⟩
    rcases Memory.mem_insert hc with rfl | hc
    · exact ⟨ha, hx⟩
    · exact h.2 c (hmem c hc).2

/-- A block write inside memory keeps the canonical form. -/
theorem Memory.storeBytes_wf {m : Memory} {a : Nat} {bs : List Byte} (h : m.wf = true)
    (ha : a + bs.length ≤ Config.memSize) : (m.storeBytes a bs).wf = true := by
  induction bs generalizing m a with
  | nil => exact h
  | cons x bs ih =>
    simp only [List.length_cons] at ha
    exact ih (Memory.store_wf h (by omega)) (by omega)

/-- The bytes a faulting store leaves unspecified all exist, so the canonical form is kept. -/
theorem State.havocBytes_wf {s : State} (n : Nat) (h : s.mem.wf = true) : (s.havocBytes n).mem.wf = true := by
  by_cases hi : s.i.toNat ≤ Config.memSize
  · exact Memory.storeBytes_wf h (by simp [State.freeBytes]; omega)
  · have : min n (Config.memSize - s.i.toNat) = 0 := by omega
    simpa [State.havocBytes, State.freeBytes, this, Memory.storeBytes] using h

/-- A faulting store changes at most the bytes it aimed at. -/
theorem State.load_havocBytes_outside {s : State} {n a : Nat} (h : a < s.i.toNat ∨ s.i.toNat + n ≤ a) :
    (s.havocBytes n).mem.load a = s.mem.load a :=
  Memory.load_storeBytes_outside (by simp [State.freeBytes]; omega)

theorem outOfMemory_iff (a n : Nat) : outOfMemory a n = true ↔ Config.memSize < a + n := by simp [outOfMemory]

theorem outOfMemory_eq_false_iff (a n : Nat) : outOfMemory a n = false ↔ a + n ≤ Config.memSize := by
  simp [outOfMemory]

end Sys2Proof.Machine
end

