-- ==== Sys2Proof/Laws/Operations.lean ====
section
/-! SUPPORT. One lemma per shared operation beside memory: stack, timers, keys, fetch, flags; each says everything the
operation can do. -/

namespace Sys2Proof.Machine

/-! ### Stack (R25) -/

/-- `Push` with room: the address is on top, the depth one more, every other entry as before, nothing else changed. -/
theorem State.push_of_room {s : State} (a : Word) (h : s.sp.val < Config.stackDepth) :
    s.push a = some { s with stk := s.stk.set s.sp.val a h, sp := ⟨s.sp.val + 1, Nat.succ_lt_succ h⟩ } := by
  simp [State.push, h]

/-- `Push` answers none exactly on a full stack. -/
theorem State.push_eq_none_iff (s : State) (a : Word) : s.push a = none ↔ s.sp.val = Config.stackDepth := by
  have := s.sp.isLt
  by_cases h : s.sp.val < Config.stackDepth <;> simp [State.push, h] <;> omega

/-- `Pop` answers none exactly on an empty stack. -/
theorem State.pop_eq_none_iff (s : State) : s.pop = none ↔ s.sp.val = 0 := by
  by_cases h : 0 < s.sp.val
  · have hne : s.sp.val ≠ 0 := by omega
    simp [State.pop, h, hne]
  · simp only [State.pop, h, dif_neg, not_false_eq_true, true_iff]
    omega

/-- What a successful `Pop` gives: the top entry, the depth one less, nothing else changed. -/
theorem State.pop_eq_some {s : State} {a : Word} {t : State} (h : s.pop = some (a, t)) :
    ∃ k, ∃ hk : k < Config.stackDepth, s.sp.val = k + 1 ∧ a = s.stk[k] ∧
      t = { s with sp := ⟨k, Nat.lt_succ_of_lt hk⟩ } := by
  unfold State.pop at h
  split at h
  · next hp =>
    have hlt := s.sp.isLt
    simp only [Option.some.injEq, Prod.mk.injEq] at h
    exact ⟨s.sp.val - 1, by omega, by omega, h.1.symm, h.2.symm⟩
  · cases h

/-! ### Timers (R179) -/

theorem countDown_toNat (t : Byte) : (countDown t).toNat = t.toNat - 1 := by
  unfold countDown
  split
  · next h => subst h; rfl
  · next h =>
    have : t.toNat ≠ 0 := fun h0 => h (BitVec.eq_of_toNat_eq h0)
    have := t.isLt
    rw [BitVec.toNat_sub]
    simp only [BitVec.toNat_ofNat]
    omega

/-! ### Keys (R174) -/

/-- No key is found exactly when none of the 16 is down. -/
theorem State.lowestKeyDown_eq_none_iff (s : State) :
    s.lowestKeyDown = none ↔ ∀ k < Config.nkeys, s.keyDown k = false := by
  simp [State.lowestKeyDown]

/-- The key found is down, is one of the 16, and none below it is down. -/
theorem State.lowestKeyDown_eq_some {s : State} {k : Nat} (h : s.lowestKeyDown = some k) :
    k < Config.nkeys ∧ s.keyDown k = true ∧ ∀ j < k, s.keyDown j = false := by
  rw [State.lowestKeyDown, List.find?_range_eq_some] at h
  obtain ⟨hk, hmem, hlow⟩ := h
  exact ⟨by simpa using hmem, hk, fun j hj => by simpa using hlow j hj⟩

/-! ### Fetch (R52) -/

theorem State.fetchWord_eq_none_iff (s : State) : s.fetchWord = none ↔ Config.memSize ≤ s.pc.toNat + 1 := by
  simp only [State.fetchWord]
  split
  · next h => simp only [outOfMemory_iff] at h; simp; omega
  · next h => simp only [Bool.not_eq_true, outOfMemory_eq_false_iff] at h; simp; omega

theorem State.fetchWord_of_inside {s : State} (h : s.pc.toNat + 1 < Config.memSize) :
    s.fetchWord = some (opcodeOf (s.mem.load s.pc.toNat) (s.mem.load (s.pc.toNat + 1))) := by
  have : outOfMemory s.pc.toNat 2 = false := by rw [outOfMemory_eq_false_iff]; omega
  simp [State.fetchWord, this]

/-! ### Register lists -/

theorem State.regsUpTo_length (s : State) (x : RegIx) : (s.regsUpTo x).length = x.toNat + 1 := by
  have : x.toNat < 16 := x.isLt
  simp [State.regsUpTo]; omega

theorem State.regsUpTo_getElem? (s : State) (x r : RegIx) (h : r.toNat ≤ x.toNat) :
    (s.regsUpTo x)[r.toNat]? = some (s.reg r) := by
  simp [State.regsUpTo, State.reg, List.getElem?_take]
  omega

/-! ### The cycle and the step -/

/-- Everything a cycle can do (R100, R202, R204). -/
theorem cycle_cases (s : State) :
    (s.halted = true ∧ cycle s = .next s) ∨
    (s.halted = false ∧ s.fetchWord = none ∧ cycle s = .next (s.raise .fetch s.pc)) ∨
    (∃ op, s.halted = false ∧ s.fetchWord = some op ∧ decode op = none ∧ cycle s = .next (s.raise .decodeError op)) ∨
    (∃ op i, s.halted = false ∧ s.fetchWord = some op ∧ decode op = some i ∧ cycle s = exec i s) := by
  unfold cycle
  cases hh : s.halted with
  | true => simp
  | false =>
    cases hf : s.fetchWord with
    | none => simp
    | some op =>
      cases hd : decode op with
      | none => simp [hd]
      | some i => simp [hd]

/-- What each host step answers (R156, R171, R179). -/
theorem runEvent_hostStep (s : State) :
    runEvent .tick s = .next s.tick ∧ (∀ k, runEvent (.keyWrite k) s = .next (s.keyWrite k)) ∧
    runEvent .frameRead s = .next { s with dirty := false } := ⟨rfl, fun _ => rfl, rfl⟩

/-- Everything a step can do (R7): the first of the schedule, or what the driver has next. -/
theorem step_cases (s : State) :
    (∃ e es, s.schedule = e :: es ∧ step s = runEvent e { s with schedule := es }) ∨
    (s.schedule = [] ∧ s.driver = .alone ∧ step s = cycle s) ∨
    (∃ e es, s.schedule = [] ∧ s.driver = .repeats e es ∧ step s = runEvent e { s with schedule := es }) ∨
    (∃ k, s.schedule = [] ∧ s.driver = .free k ∧
      step s = runEvent (Config.freeEvent k) { s with driver := .free (k + 1) }) := by
  unfold step stepUnder State.nextEvent
  cases s.schedule with
  | cons e es => simp
  | nil => cases s.driver <;> simp [runEvent]

/-- A run goes on from the state its first step answers. -/
theorem core_run_of_next {n : Nat} {s t : State} (h : step s = .next t) :
    Sys2Proof.core.run (n + 1) s = Sys2Proof.core.run n t := by
  have h' : Sys2Proof.core.step s = .next t := h
  simp only [Host.Core.run]
  rw [h']

theorem core_run_zero (s : State) : Sys2Proof.core.run 0 s = .next s := rfl

end Sys2Proof.Machine
end

