-- ==== Sys2Proof/Laws/Display.lean ====
section
/-! SUPPORT. What the sprite engine does (spec/42_display.md R152, R155), row by row: a row XORs its eight bits into eight
distinct pixels and nothing else, and reports a collision exactly where a set bit meets a set pixel. -/

namespace Sys2Proof.Machine

/-- One sprite pixel changes the one screen pixel it lands on. -/
theorem drawPixel_pixel (acc : Framebuffer × Bool) (px py : Nat) (bit : Bool) (y : Fin Config.dispH)
    (x : Fin Config.dispW) :
    (drawPixel acc px py bit).1.pixel y x =
      (acc.1.pixel y x ^^ (bit && decide (py % Config.dispH = y.val) && decide (px % Config.dispW = x.val))) := by
  simp only [drawPixel, Framebuffer.pixel_setPixel]
  have hy : (Fin.ofNat Config.dispH py = y) ↔ py % Config.dispH = y.val := by simp [Fin.ext_iff]
  have hx : (Fin.ofNat Config.dispW px = x) ↔ px % Config.dispW = x.val := by simp [Fin.ext_iff]
  by_cases h : Fin.ofNat Config.dispH py = y ∧ Fin.ofNat Config.dispW px = x
  · obtain ⟨h1, h2⟩ := h
    simp [← h1, ← h2]
  · rw [if_neg h]
    rw [hy, hx] at h
    by_cases h1 : py % Config.dispH = y.val <;> by_cases h2 : px % Config.dispW = x.val <;> simp_all

/-- One sprite pixel adds a collision exactly when its bit and the screen pixel are both set. -/
theorem drawPixel_collision (acc : Framebuffer × Bool) (px py : Nat) (bit : Bool) :
    (drawPixel acc px py bit).2 =
      (acc.2 || (bit && acc.1.pixel (Fin.ofNat Config.dispH py) (Fin.ofNat Config.dispW px))) := rfl

/-- How far the screen column `x` lies right of `px`, around the edge. -/
def columnOffset (px : Nat) (x : Fin Config.dispW) : Nat := (x.val + Config.dispW - px % Config.dispW) % Config.dispW

/-- How far the screen row `y` lies below `py`, around the edge. -/
def rowOffset (py : Nat) (y : Fin Config.dispH) : Nat := (y.val + Config.dispH - py % Config.dispH) % Config.dispH

theorem column_hit_iff {px c : Nat} {x : Fin Config.dispW} (hc : c < Config.dispW) :
    (px + c) % Config.dispW = x.val ↔ c = columnOffset px x := by
  have := x.isLt
  simp only [columnOffset, Config.dispW] at *
  omega

theorem row_hit_iff {py r : Nat} {y : Fin Config.dispH} (hr : r < Config.dispH) :
    (py + r) % Config.dispH = y.val ↔ r = rowOffset py y := by
  have := y.isLt
  simp only [rowOffset, Config.dispH] at *
  omega

theorem columnOffset_ofNat {px c : Nat} (hc : c < Config.dispW) :
    columnOffset px (Fin.ofNat Config.dispW (px + c)) = c :=
  ((column_hit_iff hc).mp rfl).symm

theorem rowOffset_ofNat {py r : Nat} (hr : r < Config.dispH) : rowOffset py (Fin.ofNat Config.dispH (py + r)) = r :=
  ((row_hit_iff hr).mp rfl).symm

/-- The first `n` columns of a sprite row. -/
def drawColumns (acc : Framebuffer × Bool) (px py : Nat) (b : Byte) (n : Nat) : Framebuffer × Bool :=
  (List.range n).foldl (fun acc c => drawPixel acc (px + c) py (spriteBit b c)) acc

theorem drawColumns_succ (acc : Framebuffer × Bool) (px py : Nat) (b : Byte) (n : Nat) :
    drawColumns acc px py b (n + 1) = drawPixel (drawColumns acc px py b n) (px + n) py (spriteBit b n) := by
  simp [drawColumns, List.range_succ]

theorem drawColumns_pixel (acc : Framebuffer × Bool) (px py : Nat) (b : Byte) {n : Nat} (hn : n ≤ Config.dispW)
    (y : Fin Config.dispH) (x : Fin Config.dispW) :
    (drawColumns acc px py b n).1.pixel y x = (acc.1.pixel y x ^^
      (decide (py % Config.dispH = y.val) && decide (columnOffset px x < n) && spriteBit b (columnOffset px x))) := by
  induction n with
  | zero => simp [drawColumns]
  | succ n ih =>
    rw [drawColumns_succ, drawPixel_pixel, ih (by omega)]
    simp only [column_hit_iff (px := px) (x := x) (show n < Config.dispW by omega)]
    by_cases hy : py % Config.dispH = y.val
    · rcases Nat.lt_trichotomy n (columnOffset px x) with h | h | h
      · simp [hy, show ¬ n = columnOffset px x by omega, show ¬ columnOffset px x < n by omega,
          show ¬ columnOffset px x < n + 1 by omega]
      · simp [hy, ← h]
      · simp [hy, show ¬ n = columnOffset px x by omega, show columnOffset px x < n by omega,
          show columnOffset px x < n + 1 by omega]
    · simp [hy]

theorem drawColumns_collision (acc : Framebuffer × Bool) (px py : Nat) (b : Byte) {n : Nat} (hn : n ≤ Config.dispW) :
    (drawColumns acc px py b n).2 = true ↔ acc.2 = true ∨
      ∃ c < n, spriteBit b c = true ∧
        acc.1.pixel (Fin.ofNat Config.dispH py) (Fin.ofNat Config.dispW (px + c)) = true := by
  induction n with
  | zero => simp [drawColumns]
  | succ n ih =>
    rw [drawColumns_succ, drawPixel_collision, drawColumns_pixel _ _ _ _ (show n ≤ Config.dispW by omega),
      columnOffset_ofNat (show n < Config.dispW by omega)]
    simp only [Nat.lt_irrefl, decide_false, Bool.and_false, Bool.false_and, Bool.xor_false, Bool.or_eq_true,
      Bool.and_eq_true, ih (show n ≤ Config.dispW by omega)]
    constructor
    · rintro ((h | ⟨c, hc, h⟩) | h)
      · exact .inl h
      · exact .inr ⟨c, by omega, h⟩
      · exact .inr ⟨n, by omega, h⟩
    · rintro (h | ⟨c, hc, h⟩)
      · exact .inl (.inl h)
      · by_cases hcn : c = n
        · exact .inr (hcn ▸ h)
        · exact .inl (.inr ⟨c, by omega, h⟩)

/-- The sprite bit that lands on screen pixel (`y`, `x`), false where no sprite pixel does. -/
def spriteOver (px py : Nat) (rows : List Byte) (y : Fin Config.dispH) (x : Fin Config.dispW) : Bool :=
  match rows[rowOffset py y]? with
  | some b => decide (columnOffset px x < 8) && spriteBit b (columnOffset px x)
  | none => false

theorem rowOffset_succ_of_pos {py : Nat} {y : Fin Config.dispH} (h : rowOffset py y ≠ 0) :
    rowOffset py y = rowOffset (py + 1) y + 1 := by
  have := y.isLt
  simp only [rowOffset, Config.dispH] at *
  omega

theorem rowOffset_succ_of_zero {py : Nat} {y : Fin Config.dispH} (h : rowOffset py y = 0) :
    rowOffset (py + 1) y = 31 := by
  have := y.isLt
  simp only [rowOffset, Config.dispH] at *
  omega

/-- Every screen pixel is XORed with the sprite bit that lands on it (R152). -/
theorem drawRows_pixel (acc : Framebuffer × Bool) (px py : Nat) {rows : List Byte} (hl : rows.length ≤ Config.dispH)
    (y : Fin Config.dispH) (x : Fin Config.dispW) :
    (drawRows acc px py rows).1.pixel y x = (acc.1.pixel y x ^^ spriteOver px py rows y x) := by
  induction rows generalizing acc py with
  | nil => simp [drawRows, spriteOver]
  | cons b bs ih =>
    simp only [List.length_cons] at hl
    have hrow : (drawRow acc px py b).1.pixel y x = _ := drawColumns_pixel acc px py b (show 8 ≤ Config.dispW by decide) y x
    rw [drawRows, ih _ _ (by omega), hrow]
    have hy : py % Config.dispH = y.val ↔ 0 = rowOffset py y := row_hit_iff (py := py) (r := 0) (y := y) (by decide)
    by_cases h0 : rowOffset py y = 0
    · have hnone : bs[rowOffset (py + 1) y]? = none := by
        rw [rowOffset_succ_of_zero h0]; exact List.getElem?_eq_none (Nat.le_of_succ_le_succ hl)
      simp [spriteOver, hnone, h0, hy]
    · have hs : (b :: bs)[rowOffset py y]? = bs[rowOffset (py + 1) y]? := by
        rw [rowOffset_succ_of_pos h0, List.getElem?_cons_succ]
      have : ¬ 0 = rowOffset py y := fun h => h0 h.symm
      simp [spriteOver, hs, hy, this]

/-- A collision is a set sprite bit on a screen pixel that was set before the draw (R152, R155). -/
theorem drawRows_collision (acc : Framebuffer × Bool) (px py : Nat) {rows : List Byte}
    (hl : rows.length ≤ Config.dispH) :
    (drawRows acc px py rows).2 = true ↔ acc.2 = true ∨
      ∃ r c b, rows[r]? = some b ∧ c < 8 ∧ spriteBit b c = true ∧
        acc.1.pixel (Fin.ofNat Config.dispH (py + r)) (Fin.ofNat Config.dispW (px + c)) = true := by
  induction rows generalizing acc py with
  | nil => simp [drawRows]
  | cons b bs ih =>
    simp only [List.length_cons] at hl
    have hcoll : (drawRow acc px py b).2 = true ↔ _ := drawColumns_collision acc px py b (show 8 ≤ Config.dispW by decide)
    have hpix : ∀ r c, r < bs.length → (drawRow acc px py b).1.pixel (Fin.ofNat Config.dispH (py + 1 + r))
        (Fin.ofNat Config.dispW (px + c)) =
        acc.1.pixel (Fin.ofNat Config.dispH (py + (r + 1))) (Fin.ofNat Config.dispW (px + c)) := by
      intro r c hr
      have hp : (drawRow acc px py b).1.pixel _ _ = _ := drawColumns_pixel acc px py b (show 8 ≤ Config.dispW by decide)
        (Fin.ofNat Config.dispH (py + (r + 1))) (Fin.ofNat Config.dispW (px + c))
      have hne : ¬ py % Config.dispH = (Fin.ofNat Config.dispH (py + (r + 1))).val := by
        simp only [Fin.val_ofNat, Config.dispH] at *
        omega
      rw [show py + 1 + r = py + (r + 1) by omega, hp, decide_eq_false hne]
      simp only [Bool.false_and, Bool.xor_false]
    rw [drawRows, ih _ _ (by omega), hcoll]
    constructor
    · rintro ((h | ⟨c, hc, hb, h⟩) | ⟨r, c, d, hr, hc, hb, h⟩)
      · exact .inl h
      · exact .inr ⟨0, c, b, rfl, hc, hb, h⟩
      · have hlt : r < bs.length := (List.getElem?_eq_some_iff.mp hr).1
        exact .inr ⟨r + 1, c, d, by simpa using hr, hc, hb, by rw [← hpix r c hlt]; exact h⟩
    · rintro (h | ⟨r, c, d, hr, hc, hb, h⟩)
      · exact .inl (.inl h)
      · cases r with
        | zero =>
          obtain rfl : b = d := by simpa using hr
          exact .inl (.inr ⟨c, hc, hb, h⟩)
        | succ r =>
          have hr' : bs[r]? = some d := by simpa using hr
          have hlt : r < bs.length := (List.getElem?_eq_some_iff.mp hr').1
          exact .inr ⟨r, c, d, hr', hc, hb, by rw [hpix r c hlt]; exact h⟩

/-- The sprite engine's pixels: XOR with the sprite placed at `(x mod 64, y mod 32)`, wrapping on both axes (R152, D15). -/
theorem drawSprite_pixel (fb : Framebuffer) (vx vy : Byte) {rows : List Byte} (hl : rows.length ≤ Config.dispH)
    (y : Fin Config.dispH) (x : Fin Config.dispW) :
    (drawSprite fb vx vy rows).1.pixel y x =
      (fb.pixel y x ^^ spriteOver (vx.toNat % Config.dispW) (vy.toNat % Config.dispH) rows y x) :=
  drawRows_pixel (fb, false) _ _ hl y x

/-- Two framebuffers with the same pixels are the same. -/
theorem Framebuffer.ext_pixel {f g : Framebuffer} (h : ∀ y x, f.pixel y x = g.pixel y x) : f = g := by
  apply Vector.ext
  intro y hy
  apply Vector.ext
  intro x hx
  exact h ⟨y, hy⟩ ⟨x, hx⟩

end Sys2Proof.Machine
end

