-- ==== Sys2Proof/Laws/Encoding.lean ====
section
/-! SUPPORT. The fields of a word built by a format of R71 are the fields it was built from; the fields of a word as numbers
(R9, R11); and every instruction is well formed (R77). -/

namespace Sys2Proof

/-! ### A word and its fields as numbers -/

theorem append_toNat {v w : Nat} (a : BitVec v) (b : BitVec w) : (a ++ b).toNat = a.toNat * 2 ^ w + b.toNat := by
  rw [BitVec.toNat_append, ← Nat.shiftLeft_add_eq_or_of_lt b.isLt, Nat.shiftLeft_eq]

variable (op : Word) (top x y n : BitVec 4) (nn : Byte) (nnn : Addr12)

theorem topOf_toNat : (topOf op).toNat = op.toNat / 4096 % 16 := by
  simp [topOf, Nat.shiftRight_eq_div_pow]

theorem xOf_toNat : (xOf op).toNat = op.toNat / 256 % 16 := by
  simp [xOf, Nat.shiftRight_eq_div_pow]

theorem yOf_toNat : (yOf op).toNat = op.toNat / 16 % 16 := by
  simp [yOf, Nat.shiftRight_eq_div_pow]

theorem nOf_toNat : (nOf op).toNat = op.toNat % 16 := by
  simp [nOf, Nat.shiftRight_eq_div_pow]

theorem nnOf_toNat : (nnOf op).toNat = op.toNat % 256 := by
  simp [nnOf, Nat.shiftRight_eq_div_pow]

theorem nnnOf_toNat : (nnnOf op).toNat = op.toNat % 4096 := by
  simp [nnnOf, Nat.shiftRight_eq_div_pow]

theorem highByte_toNat : (highByte op).toNat = op.toNat / 256 := by
  have := op.isLt
  simp [highByte, Nat.shiftRight_eq_div_pow]
  omega

theorem lowByte_toNat : (lowByte op).toNat = op.toNat % 256 := by
  simp [lowByte]

theorem opcodeOf_toNat (hi lo : Byte) : (opcodeOf hi lo).toNat = hi.toNat * 256 + lo.toNat := by
  rw [opcodeOf, append_toNat]
  omega

theorem formatNNN_toNat : (formatNNN top nnn).toNat = top.toNat * 4096 + nnn.toNat := by
  rw [formatNNN, append_toNat]
  omega

theorem formatXNN_toNat : (formatXNN top x nn).toNat = (top.toNat * 16 + x.toNat) * 256 + nn.toNat := by
  rw [formatXNN, append_toNat, append_toNat]
  omega

theorem formatXYN_toNat :
    (formatXYN top x y n).toNat = ((top.toNat * 16 + x.toNat) * 16 + y.toNat) * 16 + n.toNat := by
  rw [formatXYN, append_toNat, append_toNat, append_toNat]
  omega

theorem formatX_toNat : (formatX top x nn).toNat = (top.toNat * 16 + x.toNat) * 256 + nn.toNat := by
  rw [formatX, append_toNat, append_toNat]
  omega

/-! ### Fields of a formatted word -/

@[simp] theorem topOf_formatNNN : topOf (formatNNN top nnn) = top := by
  have htop := top.isLt
  have hnnn := nnn.isLt
  apply BitVec.eq_of_toNat_eq
  rw [topOf_toNat, formatNNN_toNat]
  omega

@[simp] theorem nnnOf_formatNNN : nnnOf (formatNNN top nnn) = nnn := by
  have htop := top.isLt
  have hnnn := nnn.isLt
  apply BitVec.eq_of_toNat_eq
  rw [nnnOf_toNat, formatNNN_toNat]
  omega

@[simp] theorem topOf_formatXNN : topOf (formatXNN top x nn) = top := by
  have htop := top.isLt
  have hx := x.isLt
  have hnn := nn.isLt
  apply BitVec.eq_of_toNat_eq
  rw [topOf_toNat, formatXNN_toNat]
  omega

@[simp] theorem xOf_formatXNN : xOf (formatXNN top x nn) = x := by
  have htop := top.isLt
  have hx := x.isLt
  have hnn := nn.isLt
  apply BitVec.eq_of_toNat_eq
  rw [xOf_toNat, formatXNN_toNat]
  omega

@[simp] theorem nnOf_formatXNN : nnOf (formatXNN top x nn) = nn := by
  have htop := top.isLt
  have hx := x.isLt
  have hnn := nn.isLt
  apply BitVec.eq_of_toNat_eq
  rw [nnOf_toNat, formatXNN_toNat]
  omega

@[simp] theorem topOf_formatXYN : topOf (formatXYN top x y n) = top := by
  have htop := top.isLt
  have hx := x.isLt
  have hy := y.isLt
  have hn := n.isLt
  apply BitVec.eq_of_toNat_eq
  rw [topOf_toNat, formatXYN_toNat]
  omega

@[simp] theorem xOf_formatXYN : xOf (formatXYN top x y n) = x := by
  have htop := top.isLt
  have hx := x.isLt
  have hy := y.isLt
  have hn := n.isLt
  apply BitVec.eq_of_toNat_eq
  rw [xOf_toNat, formatXYN_toNat]
  omega

@[simp] theorem yOf_formatXYN : yOf (formatXYN top x y n) = y := by
  have htop := top.isLt
  have hx := x.isLt
  have hy := y.isLt
  have hn := n.isLt
  apply BitVec.eq_of_toNat_eq
  rw [yOf_toNat, formatXYN_toNat]
  omega

@[simp] theorem nOf_formatXYN : nOf (formatXYN top x y n) = n := by
  have htop := top.isLt
  have hx := x.isLt
  have hy := y.isLt
  have hn := n.isLt
  apply BitVec.eq_of_toNat_eq
  rw [nOf_toNat, formatXYN_toNat]
  omega

@[simp] theorem topOf_formatX : topOf (formatX top x nn) = top := by
  have htop := top.isLt
  have hx := x.isLt
  have hnn := nn.isLt
  apply BitVec.eq_of_toNat_eq
  rw [topOf_toNat, formatX_toNat]
  omega

@[simp] theorem xOf_formatX : xOf (formatX top x nn) = x := by
  have htop := top.isLt
  have hx := x.isLt
  have hnn := nn.isLt
  apply BitVec.eq_of_toNat_eq
  rw [xOf_toNat, formatX_toNat]
  omega

@[simp] theorem nnOf_formatX : nnOf (formatX top x nn) = nn := by
  have htop := top.isLt
  have hx := x.isLt
  have hnn := nn.isLt
  apply BitVec.eq_of_toNat_eq
  rw [nnOf_toNat, formatX_toNat]
  omega

@[simp] theorem opcodeOf_bytes : opcodeOf (highByte op) (lowByte op) = op := by
  apply BitVec.eq_of_toNat_eq
  rw [opcodeOf_toNat, highByte_toNat, lowByte_toNat]
  omega

/-! ### Well-formedness -/

theorem registerInRange_true : registerInRange x.toNat = true := by
  have : x.toNat < 16 := x.isLt
  simpa [registerInRange] using this

theorem immediateInRange_true : immediateInRange nn.toNat = true := by
  have : nn.toNat < 256 := nn.isLt
  simpa [immediateInRange] using this

theorem addressInRange_true : addressInRange nnn.toNat = true := by
  have : nnn.toNat < 4096 := nnn.isLt
  simpa [addressInRange] using this

theorem heightInRange_true : heightInRange n.toNat = true := by
  have : n.toNat < 16 := n.isLt
  simpa [heightInRange] using this

/-- "Every combination of operand values in a legal word is legal" (R77). -/
theorem Instr.wellFormed_true (i : Instr) : i.wellFormed = true := by
  cases i <;>
    simp [Instr.wellFormed, registerInRange_true, immediateInRange_true, addressInRange_true, heightInRange_true]

end Sys2Proof
end

