-- ==== Sys2Proof/Laws/PerInstr.lean ====
section
/-! SUPPORT. The family WordOfRow: the word of an instruction matches the row of the opcode table (R74) that bears its
mnemonic, one lemma per constructor. -/

namespace Sys2Proof.Laws.WordOfRow

open Sys2Proof

/-- The instruction's word matches the table's row of its mnemonic. -/
def Statement (i : Instr) : Prop :=
  ∃ row ∈ opcodeTable, row.mnemonic = i.mnemonic ∧ encode i &&& row.mask = row.pattern

/-! A row's mask keeps the fixed fields of its format and clears the operand fields. -/

theorem and_ones (a : BitVec 4) : a &&& 0xF#4 = a := BitVec.and_allOnes
theorem and_ones_byte (a : Byte) : a &&& 0xFF#8 = a := BitVec.and_allOnes

theorem formatNNN_mask (top : BitVec 4) (nnn : Addr12) :
    formatNNN top nnn &&& 0xF000#16 = formatNNN top 0#12 := by
  rw [formatNNN, show (0xF000#16 : Word) = 0xF#4 ++ 0#12 from rfl, BitVec.and_append, and_ones, BitVec.and_zero]
  rfl

theorem formatXNN_mask (top x : BitVec 4) (nn : Byte) :
    formatXNN top x nn &&& 0xF000#16 = formatXNN top 0#4 0#8 := by
  rw [formatXNN, show (0xF000#16 : Word) = 0xF#4 ++ 0#4 ++ 0#8 from rfl, BitVec.and_append, BitVec.and_append, and_ones,
    BitVec.and_zero, BitVec.and_zero]
  rfl

theorem formatXYN_mask (top x y n : BitVec 4) :
    formatXYN top x y n &&& 0xF00F#16 = formatXYN top 0#4 0#4 n := by
  rw [formatXYN, show (0xF00F#16 : Word) = 0xF#4 ++ 0#4 ++ 0#4 ++ 0xF#4 from rfl, BitVec.and_append, BitVec.and_append,
    BitVec.and_append, and_ones, and_ones, BitVec.and_zero, BitVec.and_zero]
  rfl

theorem formatXYN_mask_top (top x y n : BitVec 4) :
    formatXYN top x y n &&& 0xF000#16 = formatXYN top 0#4 0#4 0#4 := by
  rw [formatXYN, show (0xF000#16 : Word) = 0xF#4 ++ 0#4 ++ 0#4 ++ 0#4 from rfl, BitVec.and_append, BitVec.and_append,
    BitVec.and_append, and_ones, BitVec.and_zero, BitVec.and_zero, BitVec.and_zero]
  rfl

theorem formatX_mask (top x : BitVec 4) (fn : Byte) : formatX top x fn &&& 0xF0FF#16 = formatX top 0#4 fn := by
  rw [formatX, show (0xF0FF#16 : Word) = 0xF#4 ++ 0#4 ++ 0xFF#8 from rfl, BitVec.and_append, BitVec.and_append, and_ones,
    and_ones_byte, BitVec.and_zero]
  rfl

theorem op00E0 : Statement .op00E0 :=
  ⟨⟨"00E0", 0xFFFF#16, 0x00E0#16⟩, by simp [opcodeTable], rfl, rfl⟩

theorem op00EE : Statement .op00EE :=
  ⟨⟨"00EE", 0xFFFF#16, 0x00EE#16⟩, by simp [opcodeTable], rfl, rfl⟩

theorem op1NNN (nnn : Addr12) : Statement (.op1NNN nnn) :=
  ⟨⟨"1NNN", 0xF000#16, 0x1000#16⟩, by simp [opcodeTable], rfl, formatNNN_mask _ _⟩

theorem op2NNN (nnn : Addr12) : Statement (.op2NNN nnn) :=
  ⟨⟨"2NNN", 0xF000#16, 0x2000#16⟩, by simp [opcodeTable], rfl, formatNNN_mask _ _⟩

theorem op3XNN (x : RegIx) (nn : Byte) : Statement (.op3XNN x nn) :=
  ⟨⟨"3XNN", 0xF000#16, 0x3000#16⟩, by simp [opcodeTable], rfl, formatXNN_mask _ _ _⟩

theorem op4XNN (x : RegIx) (nn : Byte) : Statement (.op4XNN x nn) :=
  ⟨⟨"4XNN", 0xF000#16, 0x4000#16⟩, by simp [opcodeTable], rfl, formatXNN_mask _ _ _⟩

theorem op5XY0 (x y : RegIx) : Statement (.op5XY0 x y) :=
  ⟨⟨"5XY0", 0xF00F#16, 0x5000#16⟩, by simp [opcodeTable], rfl, formatXYN_mask _ _ _ _⟩

theorem op6XNN (x : RegIx) (nn : Byte) : Statement (.op6XNN x nn) :=
  ⟨⟨"6XNN", 0xF000#16, 0x6000#16⟩, by simp [opcodeTable], rfl, formatXNN_mask _ _ _⟩

theorem op7XNN (x : RegIx) (nn : Byte) : Statement (.op7XNN x nn) :=
  ⟨⟨"7XNN", 0xF000#16, 0x7000#16⟩, by simp [opcodeTable], rfl, formatXNN_mask _ _ _⟩

theorem op8XY0 (x y : RegIx) : Statement (.op8XY0 x y) :=
  ⟨⟨"8XY0", 0xF00F#16, 0x8000#16⟩, by simp [opcodeTable], rfl, formatXYN_mask _ _ _ _⟩

theorem op8XY1 (x y : RegIx) : Statement (.op8XY1 x y) :=
  ⟨⟨"8XY1", 0xF00F#16, 0x8001#16⟩, by simp [opcodeTable], rfl, formatXYN_mask _ _ _ _⟩

theorem op8XY2 (x y : RegIx) : Statement (.op8XY2 x y) :=
  ⟨⟨"8XY2", 0xF00F#16, 0x8002#16⟩, by simp [opcodeTable], rfl, formatXYN_mask _ _ _ _⟩

theorem op8XY3 (x y : RegIx) : Statement (.op8XY3 x y) :=
  ⟨⟨"8XY3", 0xF00F#16, 0x8003#16⟩, by simp [opcodeTable], rfl, formatXYN_mask _ _ _ _⟩

theorem op8XY4 (x y : RegIx) : Statement (.op8XY4 x y) :=
  ⟨⟨"8XY4", 0xF00F#16, 0x8004#16⟩, by simp [opcodeTable], rfl, formatXYN_mask _ _ _ _⟩

theorem op8XY5 (x y : RegIx) : Statement (.op8XY5 x y) :=
  ⟨⟨"8XY5", 0xF00F#16, 0x8005#16⟩, by simp [opcodeTable], rfl, formatXYN_mask _ _ _ _⟩

theorem op8XY6 (x y : RegIx) : Statement (.op8XY6 x y) :=
  ⟨⟨"8XY6", 0xF00F#16, 0x8006#16⟩, by simp [opcodeTable], rfl, formatXYN_mask _ _ _ _⟩

theorem op8XY7 (x y : RegIx) : Statement (.op8XY7 x y) :=
  ⟨⟨"8XY7", 0xF00F#16, 0x8007#16⟩, by simp [opcodeTable], rfl, formatXYN_mask _ _ _ _⟩

theorem op8XYE (x y : RegIx) : Statement (.op8XYE x y) :=
  ⟨⟨"8XYE", 0xF00F#16, 0x800E#16⟩, by simp [opcodeTable], rfl, formatXYN_mask _ _ _ _⟩

theorem op9XY0 (x y : RegIx) : Statement (.op9XY0 x y) :=
  ⟨⟨"9XY0", 0xF00F#16, 0x9000#16⟩, by simp [opcodeTable], rfl, formatXYN_mask _ _ _ _⟩

theorem opANNN (nnn : Addr12) : Statement (.opANNN nnn) :=
  ⟨⟨"ANNN", 0xF000#16, 0xA000#16⟩, by simp [opcodeTable], rfl, formatNNN_mask _ _⟩

theorem opDXYN (x y : RegIx) (n : Height) : Statement (.opDXYN x y n) :=
  ⟨⟨"DXYN", 0xF000#16, 0xD000#16⟩, by simp [opcodeTable], rfl, formatXYN_mask_top _ _ _ _⟩

theorem opEX9E (x : RegIx) : Statement (.opEX9E x) :=
  ⟨⟨"EX9E", 0xF0FF#16, 0xE09E#16⟩, by simp [opcodeTable], rfl, formatX_mask _ _ _⟩

theorem opEXA1 (x : RegIx) : Statement (.opEXA1 x) :=
  ⟨⟨"EXA1", 0xF0FF#16, 0xE0A1#16⟩, by simp [opcodeTable], rfl, formatX_mask _ _ _⟩

theorem opFX07 (x : RegIx) : Statement (.opFX07 x) :=
  ⟨⟨"FX07", 0xF0FF#16, 0xF007#16⟩, by simp [opcodeTable], rfl, formatX_mask _ _ _⟩

theorem opFX0A (x : RegIx) : Statement (.opFX0A x) :=
  ⟨⟨"FX0A", 0xF0FF#16, 0xF00A#16⟩, by simp [opcodeTable], rfl, formatX_mask _ _ _⟩

theorem opFX15 (x : RegIx) : Statement (.opFX15 x) :=
  ⟨⟨"FX15", 0xF0FF#16, 0xF015#16⟩, by simp [opcodeTable], rfl, formatX_mask _ _ _⟩

theorem opFX18 (x : RegIx) : Statement (.opFX18 x) :=
  ⟨⟨"FX18", 0xF0FF#16, 0xF018#16⟩, by simp [opcodeTable], rfl, formatX_mask _ _ _⟩

theorem opFX1E (x : RegIx) : Statement (.opFX1E x) :=
  ⟨⟨"FX1E", 0xF0FF#16, 0xF01E#16⟩, by simp [opcodeTable], rfl, formatX_mask _ _ _⟩

theorem opFX29 (x : RegIx) : Statement (.opFX29 x) :=
  ⟨⟨"FX29", 0xF0FF#16, 0xF029#16⟩, by simp [opcodeTable], rfl, formatX_mask _ _ _⟩

theorem opFX33 (x : RegIx) : Statement (.opFX33 x) :=
  ⟨⟨"FX33", 0xF0FF#16, 0xF033#16⟩, by simp [opcodeTable], rfl, formatX_mask _ _ _⟩

theorem opFX55 (x : RegIx) : Statement (.opFX55 x) :=
  ⟨⟨"FX55", 0xF0FF#16, 0xF055#16⟩, by simp [opcodeTable], rfl, formatX_mask _ _ _⟩

theorem opFX65 (x : RegIx) : Statement (.opFX65 x) :=
  ⟨⟨"FX65", 0xF0FF#16, 0xF065#16⟩, by simp [opcodeTable], rfl, formatX_mask _ _ _⟩

end Sys2Proof.Laws.WordOfRow
end

