-- ==== Sys2Proof/Laws/Schedule.lean ====
section
/-! SUPPORT. The schedule and the driver are seen by no atomic step: what a step does is the same under any of them, and it
keeps them as they are (spec/00_scope.md R7). So every proof about an order of steps comes down to `runEvent`. -/

namespace Sys2Proof.Machine

/-- The state with another future: another schedule and another driver. -/
def State.under (es : List Event) (d : Driver) (s : State) : State := { s with schedule := es, driver := d }

/-- A function on the next state. -/
def onNext (f : State → State) : Result → Result
  | .next t => .next (f t)
  | .fault r => .fault r
  | .refused r => .refused r

variable (es : List Event) (d : Driver) (s : State)

@[simp] theorem State.under_own : s.under s.schedule s.driver = s := rfl
@[simp] theorem State.under_under (es' : List Event) (d' : Driver) : (s.under es' d').under es d = s.under es d := rfl
@[simp] theorem State.under_schedule : (s.under es d).schedule = es := rfl
@[simp] theorem State.under_driver : (s.under es d).driver = d := rfl
@[simp] theorem State.under_v : (s.under es d).v = s.v := rfl
@[simp] theorem State.under_pc : (s.under es d).pc = s.pc := rfl
@[simp] theorem State.under_i : (s.under es d).i = s.i := rfl
@[simp] theorem State.under_stk : (s.under es d).stk = s.stk := rfl
@[simp] theorem State.under_sp : (s.under es d).sp = s.sp := rfl
@[simp] theorem State.under_dt : (s.under es d).dt = s.dt := rfl
@[simp] theorem State.under_st : (s.under es d).st = s.st := rfl
@[simp] theorem State.under_fb : (s.under es d).fb = s.fb := rfl
@[simp] theorem State.under_dirty : (s.under es d).dirty = s.dirty := rfl
@[simp] theorem State.under_keys : (s.under es d).keys = s.keys := rfl
@[simp] theorem State.under_halted : (s.under es d).halted = s.halted := rfl
@[simp] theorem State.under_cause : (s.under es d).cause = s.cause := rfl
@[simp] theorem State.under_info : (s.under es d).info = s.info := rfl
@[simp] theorem State.under_mem : (s.under es d).mem = s.mem := rfl
@[simp] theorem State.under_freeIx : (s.under es d).freeIx = s.freeIx := rfl

@[simp] theorem State.reg_under (x : RegIx) : (s.under es d).reg x = s.reg x := rfl
@[simp] theorem State.fetchWord_under : (s.under es d).fetchWord = s.fetchWord := rfl
@[simp] theorem State.keyDown_under (k : Nat) : (s.under es d).keyDown k = s.keyDown k := rfl
@[simp] theorem State.lowestKeyDown_under : (s.under es d).lowestKeyDown = s.lowestKeyDown := rfl
@[simp] theorem State.dataAddress_under : (s.under es d).dataAddress = s.dataAddress := rfl
@[simp] theorem State.firstBadAddress_under : (s.under es d).firstBadAddress = s.firstBadAddress := rfl
@[simp] theorem State.regsUpTo_under (x : RegIx) : (s.under es d).regsUpTo x = s.regsUpTo x := rfl

theorem State.pop_under : (s.under es d).pop = s.pop.map fun p => (p.1, p.2.under es d) := by
  by_cases h : 0 < s.sp.val <;> simp [State.pop, h, State.under]

theorem State.push_under (a : Word) : (s.under es d).push a = (s.push a).map (State.under es d) := by
  by_cases h : s.sp.val < Config.stackDepth <;> simp [State.push, h, State.under]

theorem State.keySkip_under (x : RegIx) (b : Bool) : (s.under es d).keySkip x b = (s.keySkip x b).under es d := by
  simp only [State.keySkip, State.reg_under, State.keyDown_under, apply_ite (State.under es d)]
  rfl

/-- An instruction does the same under any schedule and driver, and keeps them. -/
theorem exec_under (i : Instr) : exec i (s.under es d) = onNext (State.under es d) (exec i s) := by
  cases i
  case op00EE => simp only [exec, exec00EE, State.pop_under]; cases s.pop <;> rfl
  case op2NNN => simp only [exec, exec2NNN, State.push_under, State.under_pc]; cases s.push s.pc <;> rfl
  case opDXYN x y n =>
    simp only [exec, execDXYN, State.dataAddress_under, apply_ite (onNext (State.under es d))]
    rfl
  case opFX0A => simp only [exec, execFX0A, State.lowestKeyDown_under]; cases s.lowestKeyDown <;> rfl
  case opFX33 x =>
    simp only [exec, execFX33, State.dataAddress_under, apply_ite (onNext (State.under es d))]
    rfl
  case opFX55 x =>
    simp only [exec, execFX55, State.dataAddress_under, apply_ite (onNext (State.under es d))]
    rfl
  case opFX65 x =>
    simp only [exec, execFX65, State.dataAddress_under, apply_ite (onNext (State.under es d))]
    rfl
  case opEX9E => simp only [exec, execEX9E, State.keySkip_under, onNext]
  case opEXA1 => simp only [exec, execEXA1, State.keySkip_under, onNext]
  all_goals rfl

/-- A cycle does the same under any schedule and driver, and keeps them. -/
theorem cycle_under : cycle (s.under es d) = onNext (State.under es d) (cycle s) := by
  simp only [cycle, State.under_halted, State.fetchWord_under, apply_ite (onNext (State.under es d))]
  refine if_congr Iff.rfl rfl ?_
  cases s.fetchWord with
  | none => rfl
  | some op =>
    cases h : decode op with
    | none => simp only [h]; rfl
    | some i => simp only [h]; exact exec_under es d s i

/-- An atomic step does the same under any schedule and driver, and keeps them. -/
theorem runEvent_under (e : Event) : runEvent e (s.under es d) = onNext (State.under es d) (runEvent e s) := by
  cases e with
  | cycle => exact cycle_under es d s
  | tick => rfl
  | keyWrite k => rfl
  | frameRead => rfl

/-! A step of the machine is an atomic step: the next one, on the state with it taken off. -/

theorem stepUnder_of_schedule {s : State} (σ : Nat → Event) {e : Event} {es : List Event} (h : s.schedule = e :: es) :
    stepUnder σ s = runEvent e (s.under es s.driver) := by
  simp only [stepUnder, State.nextEvent, h]; rfl

theorem stepUnder_of_alone {s : State} (σ : Nat → Event) (h : s.schedule = []) (hd : s.driver = .alone) :
    stepUnder σ s = cycle s := by
  simp only [stepUnder, State.nextEvent, h, hd]; rfl

theorem stepUnder_of_repeats {s : State} (σ : Nat → Event) {e : Event} {es : List Event} (h : s.schedule = [])
    (hd : s.driver = .repeats e es) : stepUnder σ s = runEvent e (s.under es s.driver) := by
  have ht : s.under es s.driver = { s with schedule := es } := rfl
  rw [ht]
  simp only [stepUnder, State.nextEvent, h, hd]

theorem stepUnder_of_free {s : State} (σ : Nat → Event) {k : Nat} (h : s.schedule = []) (hd : s.driver = .free k) :
    stepUnder σ s = runEvent (σ k) (s.under [] (.free (k + 1))) := by
  have ht : s.under [] (.free (k + 1)) = { s with driver := .free (k + 1) } := by rw [← h]; rfl
  rw [ht]
  simp only [stepUnder, State.nextEvent, h, hd]

end Sys2Proof.Machine
end

