-- ==== Sys2Proof/Tests/Slice0.lean ====
section
/-! SUPPORT. The model's own tests. Decoding: words written out from spec/30_encoding.md R71 and R74. Steps: vectors of
spec/95_test_vectors.md (the part and section are named), which that file derives by hand from the rules. Witnesses: for
every statement with hypotheses, states and operands that meet them, at the ends of their ranges. -/

namespace Sys2Proof.Tests

open Sys2Proof.Machine

/-! ### Helpers -/

/-- The step answers a next state of which `f` holds. -/
def answers (o : Result) (f : State → Bool) : Bool :=
  match o with
  | .next t => f t
  | .fault _ => false
  | .refused _ => false

/-- One step on `s` with the word `w` stored at PC. -/
def runs (s : State) (w : Nat) (f : State → Bool) : Bool := answers (step (s.withFetchWord 16 w)) f

/-- The step took a fault with this code and INFO, and PC and V kept their values. -/
def takes (s : State) (w code info : Nat) : Bool :=
  runs s w fun t => t.halted && t.cause.code.toNat == code && t.info.toNat == info && t.pc == s.pc && t.v == s.v

/-- The reset state with registers loaded. -/
def regs (vs : List (RegIx × Byte)) : State := vs.foldl (fun s p => s.setReg p.1 p.2) State.reset

/-- `s` with I loaded and bytes placed there. -/
def withData (s : State) (i : Word) (bs : List Byte) : State :=
  { s with i := i, mem := s.mem.storeBytes i.toNat bs }

/-- How many pixels are on. -/
def lit (fb : Framebuffer) : Nat := (fb.toList.flatMap Vector.toList).countP id

/-- Pixels named as (row, column) are all on. -/
def allOn (fb : Framebuffer) (ps : List (Fin 32 × Fin 64)) : Bool := ps.all fun p => fb.pixel p.1 p.2

/-! ### WellFormed: each check refuses the first value past its range (R72, R77) -/

theorem test_register_past_range_refused : registerInRange 15 = true ∧ registerInRange 16 = false := by decide
theorem test_immediate_past_range_refused : immediateInRange 255 = true ∧ immediateInRange 256 = false := by decide
theorem test_address_past_range_refused : addressInRange 0xFFF = true ∧ addressInRange 0x1000 = false := by decide
theorem test_height_past_range_refused : heightInRange 15 = true ∧ heightInRange 16 = false := by decide
theorem test_wellFormed_at_every_upper_end :
    (Instr.opDXYN 0xF#4 0xF#4 0xF#4).wellFormed = true ∧ (Instr.op3XNN 0xF#4 0xFF#8).wellFormed = true ∧
    (Instr.op2NNN 0xFFF#12).wellFormed = true := by decide

/-! ### Decoding, one word for every row, written from the formats of R71 -/

theorem test_decode_fixed :
    decode 0b0000000011100000#16 = some .op00E0 ∧ decode 0b0000000011101110#16 = some .op00EE := by decide
theorem test_decode_nnn :
    decode 0b0001_101010111100#16 = some (.op1NNN 0xABC#12) ∧
    decode 0b0010_001100000000#16 = some (.op2NNN 0x300#12) ∧
    decode 0b1010_001011110000#16 = some (.opANNN 0x2F0#12) := by decide
theorem test_decode_xnn :
    decode 0b0011_0011_00101010#16 = some (.op3XNN 3#4 0x2A#8) ∧
    decode 0b0100_0011_00101010#16 = some (.op4XNN 3#4 0x2A#8) ∧
    decode 0b0110_1010_01000010#16 = some (.op6XNN 0xA#4 0x42#8) ∧
    decode 0b0111_0000_00000011#16 = some (.op7XNN 0#4 3#8) := by decide
theorem test_decode_xy :
    decode 0b0101_0001_0010_0000#16 = some (.op5XY0 1#4 2#4) ∧
    decode 0b1001_0001_0010_0000#16 = some (.op9XY0 1#4 2#4) := by decide
theorem test_decode_alu_logic :
    decode 0b1000_0001_0010_0000#16 = some (.op8XY0 1#4 2#4) ∧
    decode 0b1000_0001_0010_0001#16 = some (.op8XY1 1#4 2#4) ∧
    decode 0b1000_0001_0010_0010#16 = some (.op8XY2 1#4 2#4) ∧
    decode 0b1000_0001_0010_0011#16 = some (.op8XY3 1#4 2#4) := by decide
theorem test_decode_alu_arithmetic :
    decode 0b1000_0001_0010_0100#16 = some (.op8XY4 1#4 2#4) ∧
    decode 0b1000_0001_0010_0101#16 = some (.op8XY5 1#4 2#4) ∧
    decode 0b1000_0001_0010_0110#16 = some (.op8XY6 1#4 2#4) ∧
    decode 0b1000_0001_0010_0111#16 = some (.op8XY7 1#4 2#4) ∧
    decode 0b1000_0001_0010_1110#16 = some (.op8XYE 1#4 2#4) := by decide
theorem test_decode_draw : decode 0b1101_0001_0010_0101#16 = some (.opDXYN 1#4 2#4 5#4) := by decide
theorem test_decode_keys :
    decode 0b1110_0100_10011110#16 = some (.opEX9E 4#4) ∧
    decode 0b1110_0100_10100001#16 = some (.opEXA1 4#4) ∧
    decode 0b1111_0101_00001010#16 = some (.opFX0A 5#4) := by decide
theorem test_decode_timers :
    decode 0b1111_0011_00000111#16 = some (.opFX07 3#4) ∧
    decode 0b1111_0011_00010101#16 = some (.opFX15 3#4) ∧
    decode 0b1111_0011_00011000#16 = some (.opFX18 3#4) := by decide
theorem test_decode_index_and_block :
    decode 0b1111_0010_00011110#16 = some (.opFX1E 2#4) ∧
    decode 0b1111_0011_00101001#16 = some (.opFX29 3#4) ∧
    decode 0b1111_0010_00110011#16 = some (.opFX33 2#4) ∧
    decode 0b1111_0011_01010101#16 = some (.opFX55 3#4) ∧
    decode 0b1111_0011_01100101#16 = some (.opFX65 3#4) := by decide

/-- 95_test_vectors.md V-fetch: illegal words of every group (R75). -/
theorem test_illegal_words_decode_to_none :
    ([0x0000, 0x00E1, 0x00EF, 0x0123, 0x0FFF, 0x5001, 0x512F, 0x9001, 0x9AB8, 0x8008, 0x8009, 0x800A, 0x800B, 0x800C,
      0x800D, 0x800F, 0xB000, 0xB123, 0xC000, 0xC0FF, 0xE09F, 0xE0A0, 0xE000, 0xE1FF] ++
     [0xF000, 0xF01F, 0xF075, 0xF085, 0xF0FF, 0xF002]).all (fun w => decode w == none) = true := by decide

theorem test_encode_is_the_word :
    encode (.op1NNN 0xABC#12) = 0x1ABC#16 ∧ encode (.opDXYN 1#4 2#4 3#4) = 0xD123#16 ∧
    encodeBytes (.opFX65 0xA#4) = [0xFA#8, 0x65#8] := by decide
theorem test_decodeBytes_big_endian :
    decodeBytes [0x12#8, 0x34#8, 0x56#8] = some (.op1NNN 0x234#12, [0x56#8]) ∧ decodeBytes [0x12#8] = none := by decide
theorem test_decodeTableWord :
    decodeTableWord 16 0xD125 = some (.opDXYN 1#4 2#4 5#4) ∧ decodeTableWord 16 0x5121 = none := by decide

/-! ### The cycle (V-fetch) -/

/-- The word placed by `withFetchWord` runs as the first instruction after reset. -/
theorem test_first_instruction_after_reset :
    runs State.reset 0x1234 (fun t => t.pc == 0x234#16) = true := by decide
theorem test_fetch_at_odd_pc :
    runs { State.reset with pc := 0x201#16 } 0x6007 (fun t => t.reg 0#4 == 7#8 && t.pc == 0x203#16) = true := by decide
theorem test_last_fetchable_address :
    runs { State.reset with pc := 0xFFE#16 } 0x6A01 (fun t => t.reg 0xA#4 == 1#8 && t.pc == 0x1000#16) = true := by
  decide
theorem test_fetch_past_end_faults :
    answers (step { State.reset with pc := 0xFFF#16 }) (fun t => t.halted && t.cause == .fetch && t.info == 0xFFF#16 &&
      t.pc == 0xFFF#16) = true := by decide
theorem test_illegal_word_faults : takes State.reset 0xB123 1 0xB123 = true := by decide
theorem test_halted_machine_does_not_cycle :
    answers (step { State.reset with halted := true, cause := .keyIndex, pc := 0x200#16 }) (fun t =>
      t.pc == 0x200#16 && t.cause == .keyIndex) = true := by decide

/-! ### Control flow (V-flow) -/

/-- A stack of depth 2 with 0x200 and 0x3F0, as V-flow's first row. -/
def twoDeep : State := { State.reset with stk := (State.reset.stk.set 0 0x200#16).set 1 0x3F0#16, sp := 2, pc := 0x400#16 }

theorem test_return :
    runs twoDeep 0x00EE (fun t => t.sp.val == 1 && t.pc == 0x3F2#16 && t.stk[0] == 0x200#16) = true := by decide
theorem test_return_on_empty_stack_faults : takes State.reset 0x00EE 5 0x200 = true := by decide
theorem test_jump_to_odd_address : runs State.reset 0x1201 (fun t => t.pc == 0x201#16) = true := by decide
theorem test_call :
    runs { State.reset with pc := 0x250#16, sp := 15 } 0x2ABC (fun t => t.stk[15] == 0x250#16 && t.sp.val == 16 &&
      t.pc == 0xABC#16) = true := by decide
theorem test_call_on_full_stack_faults : takes { State.reset with pc := 0x250#16, sp := 16 } 0x2ABC 4 0x250 = true := by
  decide
theorem test_skip_equal_immediate_past_the_end :
    runs { State.reset with pc := 0xFFE#16 } 0x3A00 (fun t => t.pc == 0x1002#16) = true := by decide
theorem test_skip_equal_immediate_not_taken :
    runs (regs [(0xA#4, 1#8)]) 0x3A00 (fun t => t.pc == 0x202#16) = true := by decide
theorem test_skip_different_immediate :
    runs (regs [(0xF#4, 0xFF#8)]) 0x4FFF (fun t => t.pc == 0x202#16) = true ∧
    runs (regs [(0xF#4, 0xFF#8)]) 0x4F00 (fun t => t.pc == 0x204#16) = true := by decide
theorem test_skip_equal_register :
    runs (regs [(1#4, 7#8), (2#4, 8#8)]) 0x5120 (fun t => t.pc == 0x202#16) = true ∧
    runs (regs [(0xA#4, 0x5C#8)]) 0x5AA0 (fun t => t.pc == 0x204#16) = true := by decide
theorem test_skip_different_register :
    runs (regs [(1#4, 7#8), (2#4, 8#8)]) 0x9120 (fun t => t.pc == 0x204#16) = true ∧
    runs (regs [(0xA#4, 0x5C#8)]) 0x9AA0 (fun t => t.pc == 0x202#16) = true := by decide

/-! ### Loads and ALU (V-alu) -/

theorem test_load_immediate : runs State.reset 0x6FFF (fun t => t.reg 0xF#4 == 0xFF#8 && t.pc == 0x202#16) = true := by
  decide
theorem test_add_immediate_wraps_without_flag :
    runs (regs [(0#4, 0xFF#8), (0xF#4, 5#8)]) 0x7001 (fun t => t.reg 0#4 == 0#8 && t.reg 0xF#4 == 5#8) = true := by decide
theorem test_copy : runs (regs [(0#4, 0x33#8)]) 0x8F00 (fun t => t.reg 0xF#4 == 0x33#8) = true := by decide
theorem test_or_leaves_vf :
    runs (regs [(0#4, 0x55#8), (1#4, 0xAA#8), (0xF#4, 1#8)]) 0x8011 (fun t =>
      t.reg 0#4 == 0xFF#8 && t.reg 0xF#4 == 1#8) = true := by decide
theorem test_and :
    runs (regs [(1#4, 0xF3#8), (2#4, 0x3F#8)]) 0x8122 (fun t => t.reg 1#4 == 0x33#8) = true := by decide
theorem test_xor :
    runs (regs [(1#4, 0xFF#8), (2#4, 0x0F#8)]) 0x8123 (fun t => t.reg 1#4 == 0xF0#8) = true := by decide
theorem test_add_carry :
    runs (regs [(1#4, 0xC8#8), (2#4, 0x64#8)]) 0x8124 (fun t => t.reg 1#4 == 0x2C#8 && t.reg 0xF#4 == 1#8) = true := by
  decide
theorem test_add_carry_survives_in_vf :
    runs (regs [(0xF#4, 0xF0#8), (1#4, 0x20#8)]) 0x8F14 (fun t => t.reg 0xF#4 == 1#8) = true := by decide
theorem test_sub_borrow :
    runs (regs [(1#4, 5#8), (2#4, 7#8)]) 0x8125 (fun t => t.reg 1#4 == 0xFE#8 && t.reg 0xF#4 == 1#8) = true := by decide
theorem test_sub_equal_does_not_borrow :
    runs (regs [(0#4, 5#8), (1#4, 5#8), (0xF#4, 1#8)]) 0x8015 (fun t => t.reg 0#4 == 0#8 && t.reg 0xF#4 == 0#8) =
      true := by decide
theorem test_shift_right :
    runs (regs [(0#4, 0xFE#8), (1#4, 0xFF#8), (0xF#4, 1#8)]) 0x8016 (fun t =>
      t.reg 0#4 == 0x7F#8 && t.reg 0xF#4 == 0#8) = true := by decide
theorem test_shift_right_value_survives_in_vf :
    runs (regs [(0xF#4, 3#8), (1#4, 8#8)]) 0x8F16 (fun t => t.reg 0xF#4 == 4#8) = true := by decide
theorem test_reverse_sub :
    runs (regs [(0#4, 1#8), (1#4, 3#8), (0xF#4, 1#8)]) 0x8017 (fun t => t.reg 0#4 == 2#8 && t.reg 0xF#4 == 0#8) =
      true := by decide
theorem test_shift_left :
    runs (regs [(1#4, 0x80#8), (2#4, 0x41#8)]) 0x812E (fun t => t.reg 1#4 == 0x82#8 && t.reg 0xF#4 == 1#8) = true := by
  decide
theorem test_shift_left_flag_from_vx_not_vy :
    runs (regs [(0#4, 0x7F#8), (1#4, 0xFF#8), (0xF#4, 1#8)]) 0x801E (fun t =>
      t.reg 0#4 == 0xFE#8 && t.reg 0xF#4 == 0#8) = true := by decide

/-! ### Index (V-index) -/

theorem test_load_index : runs { State.reset with i := 0xFFFF#16 } 0xA2F0 (fun t => t.i == 0x2F0#16) = true := by decide
theorem test_add_index_past_twelve_bits :
    runs { regs [(0#4, 1#8)] with i := 0xFFF#16 } 0xF01E (fun t => t.i == 0x1000#16 && t.reg 0xF#4 == 0#8) = true := by
  decide
theorem test_add_index_wraps : runs { regs [(0#4, 2#8)] with i := 0xFFFF#16 } 0xF01E (fun t => t.i == 1#16) = true := by
  decide
theorem test_glyph_address :
    runs (regs [(3#4, 0xA#8)]) 0xF329 (fun t => t.i == 0x082#16) = true ∧
    runs (regs [(0#4, 0xFF#8)]) 0xF029 (fun t => t.i == 0x54B#16) = true := by decide

/-! ### Display (S3, V-display, P3) -/

theorem test_clear :
    runs { State.reset with fb := State.reset.fb.setPixel 31 63 true } 0x00E0 (fun t => lit t.fb == 0 && t.dirty) =
      true := by decide +kernel
/-- S3, first draw. -/
theorem test_draw_on_clear_screen :
    runs (withData State.reset 0x300#16 [0xFF#8]) 0xD011 (fun t =>
      lit t.fb == 8 && allOn t.fb [(0, 0), (0, 7)] && t.reg 0xF#4 == 0#8 && t.dirty) = true := by decide +kernel
/-- P3's first draw, on both edges, with one of its pixels already on. -/
theorem test_draw_wraps_and_collides :
    runs (withData { regs [(1#4, 62#8), (2#4, 31#8)] with fb := State.reset.fb.setPixel 0 5 true } 0x300#16
        [0xC0#8, 0x81#8]) 0xD122 (fun t =>
      lit t.fb == 3 && allOn t.fb [(31, 62), (31, 63), (0, 62)] && t.reg 0xF#4 == 1#8) = true := by decide +kernel
theorem test_draw_past_end_faults : takes { State.reset with i := 0xFF2#16 } 0xD01F 3 0xFF2 = true := by decide
theorem test_frame_order :
    ({ State.reset with fb := State.reset.fb.setPixel 31 62 true } : State).frameRead.1[2046]? = some 1#1 ∧
    ({ State.reset with dirty := true } : State).frameRead.2.dirty = false := by decide +kernel

/-! ### Keypad and timers (V-key, V-timer) -/

theorem test_skip_key_down :
    runs { regs [(0#4, 15#8)] with keys := 0x8000#16 } 0xE09E (fun t => t.pc == 0x204#16) = true ∧
    takes (regs [(0#4, 16#8)]) 0xE09E 6 0x10 = true := by decide
theorem test_skip_key_up :
    runs { State.reset with keys := 1#16 } 0xE0A1 (fun t => t.pc == 0x202#16) = true ∧
    takes (regs [(0#4, 0xFF#8)]) 0xE0A1 6 0xFF = true := by decide
theorem test_key_wait_takes_lowest :
    runs { State.reset with keys := 0x0208#16 } 0xF50A (fun t => t.reg 5#4 == 3#8 && t.pc == 0x202#16) = true := by decide
theorem test_key_wait_waits :
    runs (regs [(2#4, 0x77#8)]) 0xF20A (fun t => t.reg 2#4 == 0x77#8 && t.pc == 0x200#16) = true := by decide
theorem test_read_delay : runs { State.reset with dt := 0x2C#8 } 0xF307 (fun t => t.reg 3#4 == 0x2C#8) = true := by
  decide
theorem test_write_delay :
    runs (regs [(3#4, 0x3C#8)]) 0xF315 (fun t => t.dt == 0x3C#8 && t.st == 0#8) = true := by decide
theorem test_write_sound :
    runs (regs [(3#4, 5#8)]) 0xF318 (fun t => t.st == 5#8 && t.dt == 0#8 && t.toneSounds) = true := by decide
theorem test_tick :
    answers (step { State.reset with dt := 0xFF#8, st := 2#8, schedule := [.tick] }) (fun t =>
      t.dt == 0xFE#8 && t.st == 1#8 && t.pc == 0x200#16) = true ∧
    answers (step { State.reset with schedule := [.tick] }) (fun t => t.dt == 0#8 && t.st == 0#8) = true := by decide
/-- A driver that repeats two ticks to a cycle: the second lap begins when the first is done. -/
theorem test_driver_repeats :
    answers (step { State.reset with dt := 3#8, driver := .repeats .tick [.tick, .cycle] }) (fun t =>
      t.dt == 2#8 && t.schedule == [.tick, .cycle] && t.driver == .repeats .tick [.tick, .cycle]) = true := by decide
/-- The placed word runs in the very next step whatever the driver has to come. -/
theorem test_placed_word_runs_before_the_driver :
    runs { State.reset with driver := .repeats .tick [] } 0x1234 (fun t => t.pc == 0x234#16) = true ∧
    runs { State.reset with driver := .free 0 } 0x1234 (fun t => t.pc == 0x234#16) = true := by decide
theorem test_key_write :
    answers (step { State.reset with keys := 0x00FF#16, schedule := [.keyWrite 0x0100#16] }) (fun t =>
      t.keys == 0x0100#16) = true := by decide

/-! ### Loads and stores through I (S4, S5, V-mem) -/

theorem test_bcd :
    runs { regs [(2#4, 156#8)] with i := 0x300#16 } 0xF233 (fun t =>
      t.mem.loadBytes 0x300 3 == [1#8, 5#8, 6#8] && t.i == 0x300#16) = true := by decide
theorem test_bcd_past_end_faults : takes { regs [(0#4, 1#8)] with i := 0xFFE#16 } 0xF033 3 0x1000 = true := by
  decide +kernel
theorem test_store_block :
    runs { regs [(0#4, 1#8), (1#4, 2#8), (2#4, 3#8), (3#4, 4#8)] with i := 0x300#16 } 0xF355 (fun t =>
      t.mem.loadBytes 0x300 5 == [1#8, 2#8, 3#8, 4#8, 0#8] && t.i == 0x304#16) = true := by decide
theorem test_store_block_past_end_faults : takes { State.reset with i := 0xFF1#16 } 0xFF55 3 0x1000 = true := by
  decide +kernel
theorem test_load_block :
    runs (withData (regs [(1#4, 0x42#8)]) 0x300#16 [0x99#8]) 0xF065 (fun t =>
      t.reg 0#4 == 0x99#8 && t.reg 1#4 == 0x42#8 && t.i == 0x301#16) = true := by decide
theorem test_load_block_at_the_end :
    runs (withData State.reset 0xFFF#16 [0x5A#8]) 0xF065 (fun t => t.reg 0#4 == 0x5A#8 && t.i == 0x1000#16) = true := by
  decide

/-! ### Construction (V-reset) -/

theorem test_construct_loads_rom :
    (construct false [0x12#8, 0x00#8]).mem.loadBytes 0x1FF 4 = [0x00#8, 0x12#8, 0x00#8, 0x00#8] ∧
    (construct false [0x12#8, 0x00#8]).mem.loadBytes 0x04F 3 = [0x00#8, 0xF0#8, 0x90#8] := by decide
theorem test_empty_rom_faults_at_once :
    answers (step (construct false [])) (fun t => t.halted && t.cause == .decodeError && t.info == 0#16) = true := by
  decide

/-! ### Witnesses: the hypotheses of every statement that has some are met -/

/-- The reset state with a word stored at PC. -/
abbrev holding (s : State) (w : Nat) : State := s.withFetchWord 16 w

/-- One pixel on, at (0, 0). -/
abbrev onePixel : State := { State.reset with fb := State.reset.fb.setPixel 0 0 true }

theorem witness_DecodedWordEncodesToItself :
    decode 0xDFFF#16 = some (.opDXYN 0xF#4 0xF#4 0xF#4) ∧ decode 0x00E0#16 = some .op00E0 := by decide

theorem witness_WordDecodesExactlyByTheRowItMatches :
    (∃ i, decode 0xFF65#16 = some i) ∧
    (∃ row ∈ opcodeTable, 0xFF65#16 &&& row.mask = row.pattern) ∧
    (∀ row ∈ opcodeTable, 0xFF66#16 &&& row.mask ≠ row.pattern) ∧
    (∃ r₁ ∈ opcodeTable, ∃ r₂ ∈ opcodeTable, 0x00E0#16 &&& r₁.mask = r₁.pattern ∧ 0x00E0#16 &&& r₂.mask = r₂.pattern) :=
  ⟨⟨.opFX65 0xF#4, by decide⟩, ⟨⟨"FX65", 0xF0FF#16, 0xF065#16⟩, by decide, by decide⟩, by decide,
    ⟨⟨"00E0", 0xFFFF#16, 0x00E0#16⟩, by decide, ⟨"00E0", 0xFFFF#16, 0x00E0#16⟩, by decide, by decide, by decide⟩⟩

theorem witness_IllegalWordsAreThoseListedAndHalt :
    State.reset.running ∧ State.reset.fetchWord = some 0x0000#16 ∧ decode 0x0000#16 = none := ⟨rfl, by decide, by decide⟩

theorem witness_StepRunsTheDecodedInstruction :
    ∃ s : State, ∃ i, s.running ∧ s.pc.toNat + 1 = 4095 ∧
      decode (opcodeOf (s.mem.load s.pc.toNat) (s.mem.load (s.pc.toNat + 1))) = some i ∧ s.schedule = [] ∧ s.driver = .alone :=
  ⟨holding { State.reset with pc := 0xFFE#16 } 0x6A01, .op6XNN 0xA#4 1#8, rfl, by decide, by decide, rfl, rfl⟩

theorem witness_StepRunsTheDecodedInstruction_driven :
    ∀ d : Driver, ∃ s : State, ∃ i, s.running ∧ s.pc.toNat + 1 < 4096 ∧
      decode (opcodeOf (s.mem.load s.pc.toNat) (s.mem.load (s.pc.toNat + 1))) = some i ∧ s.schedule = [] ∧ s.driver = d :=
  fun d => ⟨{ holding State.reset 0x00E0 with driver := d }, .op00E0, rfl, by show 0x200 + 1 < 4096; decide,
    by show decode (opcodeOf ((holding State.reset 0x00E0).mem.load 0x200) ((holding State.reset 0x00E0).mem.load 0x201)) = _; decide,
    rfl, rfl⟩

theorem witness_StepRunsTheDecodedInstruction_scheduled :
    ∃ s : State, ∃ i es, s.running ∧ s.pc.toNat + 1 < 4096 ∧
      decode (opcodeOf (s.mem.load s.pc.toNat) (s.mem.load (s.pc.toNat + 1))) = some i ∧ s.schedule = .cycle :: es :=
  ⟨holding { State.reset with schedule := [.tick] } 0x00E0, .op00E0, [.tick], rfl, by decide, by decide, rfl⟩

theorem witness_FetchIsBigEndianAndHaltsPastTheEnd :
    ({ State.reset with pc := 0xFFE#16 } : State).pc.toNat + 1 < 4096 ∧
    (∃ s : State, s.running ∧ 4096 = s.pc.toNat + 1) :=
  ⟨by decide, { State.reset with pc := 0xFFF#16 }, rfl, by decide⟩

theorem witness_HaltedMachineNeverMovesAgain : ∃ s : State, s.halted = true ∧ s.Inv :=
  ⟨State.reset.raise .fetch 0#16, rfl, ⟨by decide, by decide, by decide, by decide, by decide⟩⟩

theorem witness_EachStepWritesOnlyWhatItOwns : ∃ t, cycle State.reset = .next t := ⟨_, rfl⟩

theorem witness_EachInstructionRaisesOnlyItsOwnFault :
    (∃ t, State.reset.running ∧ exec .op00EE State.reset = .next t ∧ t.halted = true) ∧
    (∃ t, State.reset.running ∧ cycle State.reset = .next t ∧ t.halted = true) ∧
    (∃ t, Event.tick ≠ .cycle ∧ runEvent .tick State.reset = .next t) :=
  ⟨⟨_, rfl, rfl, rfl⟩, ⟨_, rfl, rfl, rfl⟩, ⟨_, by decide, rfl⟩⟩

/-- The cycle faults in the fetch, in the decode and in the instruction. -/
theorem witness_EachInstructionRaisesOnlyItsOwnFault_stages :
    (∃ s t : State, s.running ∧ cycle s = .next t ∧ t.cause = .fetch) ∧
    (∃ s t : State, s.running ∧ cycle s = .next t ∧ t.cause = .decodeError) ∧
    (∃ s t : State, s.running ∧ cycle s = .next t ∧ t.cause = .stackUnderflow) :=
  ⟨⟨{ State.reset with pc := 0xFFF#16 }, _, rfl, rfl, rfl⟩, ⟨State.reset, _, rfl, rfl, rfl⟩,
    ⟨holding State.reset 0x00EE, _, rfl, rfl, rfl⟩⟩

/-- A fault with nothing changed, and the three whose write sets are unspecified, at the first I that faults. -/
theorem witness_FaultKeepsPcAndAllOutsideTheWriteSet :
    (∃ t, State.reset.running ∧ cycle State.reset = .next t ∧ t.halted = true) ∧
    (∃ s t : State, s.running ∧ cycle s = .next t ∧ t.halted = true ∧ s.fetchWord = some 0xF033#16 ∧ s.i = 0xFFE#16) ∧
    (∃ s t : State, s.running ∧ cycle s = .next t ∧ t.halted = true ∧ s.fetchWord = some 0xFF55#16 ∧ s.i = 0xFF1#16) ∧
    (∃ s t : State, s.running ∧ cycle s = .next t ∧ t.halted = true ∧ s.fetchWord = some 0xFF65#16 ∧ s.i = 0xFF1#16) :=
  ⟨⟨_, rfl, rfl, rfl⟩,
    ⟨holding { State.reset with i := 0xFFE#16 } 0xF033, _, rfl, rfl, rfl, by decide, rfl⟩,
    ⟨holding { State.reset with i := 0xFF1#16 } 0xFF55, _, rfl, rfl, rfl, by decide, rfl⟩,
    ⟨holding { State.reset with i := 0xFF1#16 } 0xFF65, _, rfl, rfl, rfl, by decide, rfl⟩⟩

/-- A faulting instruction, and one for each of the five places PC can be. -/
theorem witness_PcAfterAnInstruction :
    (∃ t, State.reset.running ∧ exec .op00EE State.reset = .next t ∧ t.halted = true) ∧
    (∃ t, exec .op00E0 State.reset = .next t ∧ t.running ∧ t.pc = State.reset.pc + 2#16) ∧
    (∃ t, exec (.op3XNN 0#4 0#8) State.reset = .next t ∧ t.running ∧ t.pc = State.reset.pc + 4#16) ∧
    (∃ t, exec (.op1NNN 0xFFF#12) State.reset = .next t ∧ t.running ∧ t.pc.toNat = 0xFFF) ∧
    (∃ t, exec .op00EE twoDeep = .next t ∧ t.running ∧ t.pc = 0x3F2#16) ∧
    (∃ t, exec (.opFX0A 0#4) State.reset = .next t ∧ t.running ∧ (∀ k < 16, State.reset.keyDown k = false)) :=
  ⟨⟨_, rfl, rfl, rfl⟩, ⟨_, rfl, rfl, rfl⟩, ⟨_, rfl, rfl, rfl⟩, ⟨_, rfl, rfl, rfl⟩, ⟨_, rfl, rfl, rfl⟩,
    ⟨_, rfl, rfl, by decide⟩⟩

/-- Each driver, with the schedule empty. -/
theorem witness_DriverGivesTheStepsWithoutEnd :
    ∀ d : Driver, ∃ s : State, s.schedule = [] ∧ s.driver = d := fun d => ⟨{ State.reset with driver := d }, rfl, rfl⟩

/-- A state that is not reset: a full stack, PC at the last address an instruction can be fetched from. -/
theorem witness_EveryStepKeepsTheInvariant :
    ∃ s t : State, s.Inv ∧ s.sp.val = 16 ∧ s.pc = 0xFFE#16 ∧ step s = .next t ∧ t.running :=
  ⟨holding { State.reset with pc := 0xFFE#16, sp := 16, stk := Vector.replicate 16 0xFFE#16 } 0x3000, _,
    ⟨by decide, by decide, by decide, by decide, by decide⟩, rfl, rfl, rfl, rfl⟩

theorem witness_RegistersChangeOnlyWhereTheTableSays :
    (∃ t, exec (.op6XNN 0xF#4 1#8) State.reset = .next t ∧ t.reg 0xF#4 ≠ State.reset.reg 0xF#4) ∧
    (∃ t, exec (.op8XY4 0#4 1#4) (regs [(0#4, 0xFF#8), (1#4, 2#8)]) = .next t ∧ t.reg 0xF#4 ≠ 0#8) :=
  ⟨⟨_, rfl, by decide⟩, ⟨_, rfl, by decide⟩⟩

/-- Both stores, at the last byte of memory. -/
theorem witness_MemoryChangesOnlyByItsTwoStores :
    (∃ s t : State, exec (.opFX33 0#4) s = .next t ∧ t.mem.load 0xFFF ≠ s.mem.load 0xFFF) ∧
    (∃ s t : State, exec (.opFX55 0#4) s = .next t ∧ t.mem.load 0xFFF ≠ s.mem.load 0xFFF) :=
  ⟨⟨{ regs [(0#4, 1#8)] with i := 0xFFD#16 }, _, rfl, by decide⟩,
    ⟨{ regs [(0#4, 1#8)] with i := 0xFFF#16 }, _, rfl, by decide⟩⟩

theorem witness_HostOnlyStateNeverSteersTheCpu :
    ∃ s s' t : State, s ≠ s' ∧ SameButHostOnly s s' ∧ cycle s = .next t :=
  ⟨State.reset, { State.reset with st := 1#8, dirty := true }, _, by decide, rfl, rfl⟩

theorem witness_DeadStackEntriesAreUnobservable :
    ∃ s s' t : State, s ≠ s' ∧ s.sp.val = 1 ∧ SameButDeadStack s s' ∧ step s = .next t :=
  ⟨holding { State.reset with sp := 1 } 0x00EE,
    { holding { State.reset with sp := 1 } 0x00EE with stk := State.reset.stk.set 1 7#16 }, _, by decide, rfl,
    ⟨rfl, by decide⟩, rfl⟩

/-- The longest ROM that is accepted, its last byte and the addresses around it, and the shortest that is not. -/
theorem witness_ConstructionLoadsTheRomOrHalts :
    (∃ rom : List Byte, rom.length = 0xE00 ∧ 0xDFF < rom.length) ∧
    (0x1FF < 0x200 ∨ 0x200 + 1 ≤ 0x1FF) ∧ (0xFFF < 0x200 ∨ 0x200 + ([0#8] : List Byte).length ≤ 0xFFF) ∧
    (∃ rom : List Byte, 0xE00 < rom.length ∧ rom.length = 0xE01) :=
  ⟨⟨List.replicate 0xE00 0#8, List.length_replicate, by rw [List.length_replicate]; decide⟩, by decide, by decide,
    ⟨List.replicate 0xE01 0#8, by rw [List.length_replicate]; decide, List.length_replicate⟩⟩

theorem witness_ResetStateIsAsTabled :
    79 < font.length ∧ (0x04F < 0x050 ∨ 0x0A0 ≤ 0x04F) ∧ (0x0A0 < 0x050 ∨ 0x0A0 ≤ 0x0A0) := by decide

theorem witness_KeyWriteReplacesAllSixteenFlags : (0 : Nat) < 16 ∧ (15 : Nat) < 16 := by decide

theorem witness_FramebufferReachesTheHostOnlyByFrameRead :
    Event.cycle ≠ .frameRead ∧ Event.tick ≠ .frameRead ∧ Event.keyWrite 0xFFFF#16 ≠ .frameRead := by decide

theorem witness_SelfJumpIsARestState :
    ∃ s : State, s.atRest 0x200#12 := ⟨holding State.reset 0x1200, ⟨rfl, by decide, by decide⟩⟩

/-- One place left, with another entry; and none left. -/
theorem witness_CallPushesItsOwnAddressAndJumps :
    (∃ s : State, s.sp.val < 16 ∧ s.sp.val = 15 ∧ 0 ≠ s.sp.val) ∧ (∃ s : State, s.sp.val = 16) :=
  ⟨⟨{ State.reset with sp := 15 }, by decide, rfl, by decide⟩, ⟨{ State.reset with sp := 16 }, rfl⟩⟩

theorem witness_ReturnPopsAndAddsTwo :
    (∃ s : State, 15 < 16 ∧ s.sp.val = 15 + 1) ∧ (∃ s : State, 0 < 16 ∧ s.sp.val = 0 + 1) ∧
    (∃ s : State, s.sp.val = 0) :=
  ⟨⟨{ State.reset with sp := 16 }, by decide, rfl⟩, ⟨{ State.reset with sp := 1 }, by decide, rfl⟩, ⟨State.reset, rfl⟩⟩

theorem witness_StackIsLastInFirstOutSixteenDeep :
    (∃ s t : State, s.sp.val = 15 ∧ s.push 0xABC#16 = some t) ∧
    (State.reset.sp.val = 0 ∧ (List.replicate 16 0x200#16).length = 16) ∧
    (∃ s : State, s.sp.val = 16) :=
  ⟨⟨{ State.reset with sp := 15 }, _, rfl, rfl⟩, ⟨rfl, rfl⟩, ⟨{ State.reset with sp := 16 }, rfl⟩⟩

theorem witness_ReturnResumesAfterTheCall :
    ∃ s t u : State, s.sp.val < 16 ∧ exec (.op2NNN 0x300#12) s = .next t ∧ SameStack t u ∧ u ≠ t :=
  ⟨{ State.reset with sp := 15 }, _, { State.reset with sp := 16, stk := State.reset.stk.set 15 0x200#16 },
    by decide, rfl, ⟨rfl, rfl⟩, by decide⟩

theorem witness_CopyAndLogicWriteOnlyVx : (0 : Nat) < 8 ∧ (7 : Nat) < 8 := by decide

/-- A destination that is not VF, as the statements of 8XY4, 8XY5, 8XY6, 8XY7 and 8XYE split on it. -/
theorem witness_AddSetsVfToTheCarry : (0xE#4 : RegIx) ≠ regF ∧ (0x0#4 : RegIx) ≠ regF := by decide
theorem witness_SubtractionsSetVfToTheBorrow : (0xE#4 : RegIx) ≠ regF ∧ (0x0#4 : RegIx) ≠ regF := by decide
theorem witness_ShiftsTakeTheFlagFromVxAndTheValueFromVy : (0xE#4 : RegIx) ≠ regF ∧ (0x0#4 : RegIx) ≠ regF := by decide

/-- A sprite that ends at the last byte of memory, one that ends past it, and the height 0 at both ends; the sprite of the
first covers (0, 0), which is on in one state and off in the other. -/
theorem witness_DrawFlipsTheCoveredPixelsOrHalts :
    (∃ s : State, s.dataAddress + (15#4).toNat = 4096) ∧ (∃ s : State, s.dataAddress + (0#4).toNat = 4096) ∧
    (∃ s : State, s.dataAddress + (15#4).toNat = 4097) ∧ (∃ s : State, s.dataAddress + (0#4).toNat = 4097) ∧
    (∃ s : State, s.dataAddress + (1#4).toNat ≤ 4096 ∧
      ∃ py px, spriteCovers s 0#4 1#4 1#4 py px ∧ s.fb.pixel py px = true) ∧
    (∃ s : State, s.dataAddress + (0#4).toNat ≤ 4096 ∧
      ¬ ∃ py px, spriteCovers s 0#4 1#4 0#4 py px ∧ s.fb.pixel py px = true) := by
  refine ⟨⟨{ State.reset with i := 0xFF1#16 }, rfl⟩, ⟨{ State.reset with i := 0x1000#16 }, rfl⟩,
    ⟨{ State.reset with i := 0xFF2#16 }, rfl⟩, ⟨{ State.reset with i := 0x1001#16 }, rfl⟩,
    ⟨withData onePixel 0x300#16 [0x80#8], by decide, 0, 0,
      ⟨0, 0, by decide, by decide, by decide, by decide, by decide⟩, by decide⟩,
    ⟨State.reset, by decide, ?_⟩⟩
  rintro ⟨_, _, ⟨r, _, hr, _⟩, _⟩
  exact absurd hr (Nat.not_lt_zero r)

theorem witness_CollisionMeansAPixelWasTurnedOff :
    ∃ s t : State, s.dataAddress + (1#4).toNat ≤ 4096 ∧ exec (.opDXYN 0#4 1#4 1#4) s = .next t ∧
      (∃ py px, spriteCovers s 0#4 1#4 1#4 py px ∧ s.fb.pixel py px = true) ∧
      ¬ spriteCovers s 0#4 1#4 1#4 1 0 := by
  refine ⟨withData onePixel 0x300#16 [0x80#8], _, by decide, rfl, ⟨0, 0,
    ⟨0, 0, by decide, by decide, by decide, by decide, by decide⟩, by decide⟩, ?_⟩
  rintro ⟨r, c, hr, -, -, hy, -⟩
  have hr0 : r = 0 := Nat.lt_one_iff.mp hr
  subst hr0
  exact absurd hy (by decide)

theorem witness_DrawingTwiceRestoresTheScreen : (List.replicate 15 0xFF#8).length ≤ 15 := by decide

theorem witness_KeySkipsTestTheKeyOfVx :
    (∃ s : State, (s.reg 0#4).toNat ≤ 15 ∧ (s.reg 0#4).toNat = 15) ∧ (∃ s : State, 15 < (s.reg 0#4).toNat ∧ s.reg 0#4 = 16#8) :=
  ⟨⟨regs [(0#4, 15#8)], by decide, by decide⟩, ⟨regs [(0#4, 16#8)], by decide, by decide⟩⟩

/-- Only the highest key, all keys, and none. -/
theorem witness_KeyWaitTakesTheLowestKeyOrWaits :
    (∃ s : State, 15 < 16 ∧ s.keyDown 15 = true ∧ ∀ j < 15, s.keyDown j = false) ∧
    (∃ s : State, 0 < 16 ∧ s.keyDown 0 = true ∧ ∀ j < 0, s.keyDown j = false) ∧
    (∃ s : State, ∀ k < 16, s.keyDown k = false) :=
  ⟨⟨{ State.reset with keys := 0x8000#16 }, by decide, by decide, by decide⟩,
    ⟨{ State.reset with keys := 0xFFFF#16 }, by decide, by decide, by decide⟩, ⟨State.reset, by decide⟩⟩

theorem witness_TimersRunDownDuringAKeyWait :
    ∃ s : State, s.running ∧ s.fetchWord = some 0xF50A#16 ∧ decode 0xF50A#16 = some (.opFX0A 5#4) ∧
      (∀ k < 16, s.keyDown k = false) ∧ s.dt = 5#8 ∧ s.schedule = [] ∧ s.driver = .repeats .cycle [.tick] :=
  ⟨{ holding { State.reset with dt := 5#8 } 0xF50A with driver := .repeats .cycle [.tick] }, rfl, by decide, by decide,
    by decide, rfl, rfl, rfl⟩

theorem witness_DelayReadBackIsAnyValueUpToTheOneWritten :
    ∃ s : State, 255 ≤ (s.reg 0#4).toNat ∧ 0 ≤ (s.reg 0#4).toNat := ⟨regs [(0#4, 0xFF#8)], by decide, by decide⟩

theorem witness_BcdStoresThreeDigitsOrHalts :
    (∃ s : State, s.dataAddress ≤ 4093 ∧ s.dataAddress = 4093) ∧ (∃ s : State, 4093 < s.dataAddress ∧ s.dataAddress = 4094) :=
  ⟨⟨{ State.reset with i := 0xFFD#16 }, by decide, rfl⟩, ⟨{ State.reset with i := 0xFFE#16 }, by decide, rfl⟩⟩

theorem witness_StoreCopiesV0ToVxAndAdvancesIOrHalts :
    (∃ s : State, s.dataAddress + (0xF#4).toNat = 4095 ∧ (0xF#4 : RegIx).toNat ≤ (0xF#4).toNat) ∧
    (∃ s : State, s.dataAddress + (0xF#4).toNat = 4096) ∧ (∃ s : State, s.dataAddress + (0#4).toNat = 65535) :=
  ⟨⟨{ State.reset with i := 0xFF0#16 }, rfl, by decide⟩, ⟨{ State.reset with i := 0xFF1#16 }, rfl⟩,
    ⟨{ State.reset with i := 0xFFFF#16 }, rfl⟩⟩

theorem witness_LoadFillsV0ToVxAndAdvancesIOrHalts :
    (∃ s : State, s.dataAddress + (0xF#4).toNat = 4095) ∧
    (∃ s : State, s.dataAddress + (0xE#4).toNat = 4096 ∧ (0xE#4 : RegIx).toNat < (0xF#4).toNat) :=
  ⟨⟨{ State.reset with i := 0xFF0#16 }, rfl⟩, ⟨{ State.reset with i := 0xFF2#16 }, rfl, by decide⟩⟩

theorem witness_LoadUndoesStore :
    ∃ s t u : State, s.dataAddress + (0xF#4).toNat ≤ 4095 ∧ exec (.opFX55 0xF#4) s = .next t ∧ SameMemory t u ∧
      u.i = s.i ∧ u.reg 0xF#4 ≠ s.reg 0xF#4 := by
  refine ⟨{ regs [(0xF#4, 1#8)] with i := 0xFF0#16 }, _,
    { State.reset with i := 0xFF0#16, mem := [(0xFFF, 1#8)] }, by decide, rfl, fun a => ?_, rfl, by decide⟩
  exact congrArg (fun m => Memory.load m a) (by decide)

theorem witness_StoredBytesAreWhatTheNextFetchReads :
    ∃ s t u : State, ∃ r r' : RegIx, s.dataAddress + (0xF#4).toNat ≤ 4095 ∧ exec (.opFX55 0xF#4) s = .next t ∧
      SameMemory t u ∧ r'.toNat = r.toNat + 1 ∧ r'.toNat ≤ (0xF#4).toNat ∧ u.pc.toNat = s.dataAddress + r.toNat := by
  refine ⟨{ regs [(0xF#4, 1#8)] with i := 0xFF0#16 }, _,
    { State.reset with pc := 0xFFE#16, mem := [(0xFFF, 1#8)] }, 0xE#4, 0xF#4, by decide, rfl, fun a => ?_, by decide,
    by decide, by decide⟩
  exact congrArg (fun m => Memory.load m a) (by decide)

end Sys2Proof.Tests
end

section
/-! PROOFS, family 00_scope: runs of the atomic steps of spec/00_scope.md R7. Every atomic step answers a next state (log
entry 1), so a sequence of events determines the states it runs through: `afterEvents`. -/

namespace Sys2Proof.Machine

/-! ### Every atomic step answers a next state -/

theorem exec_answers_next (i : Instr) (s : State) : ∃ t, exec i s = .next t := by
  cases i
  case op00EE => simp only [exec, exec00EE]; cases s.pop <;> exact ⟨_, rfl⟩
  case op2NNN nnn => simp only [exec, exec2NNN]; cases s.push s.pc <;> exact ⟨_, rfl⟩
  case opFX0A x => simp only [exec, execFX0A]; cases s.lowestKeyDown <;> exact ⟨_, rfl⟩
  case opDXYN x y n => simp only [exec, execDXYN]; split <;> exact ⟨_, rfl⟩
  case opFX33 x => simp only [exec, execFX33]; split <;> exact ⟨_, rfl⟩
  case opFX55 x => simp only [exec, execFX55]; split <;> exact ⟨_, rfl⟩
  case opFX65 x => simp only [exec, execFX65]; split <;> exact ⟨_, rfl⟩
  all_goals exact ⟨_, rfl⟩

theorem cycle_answers_next (s : State) : ∃ t, cycle s = .next t := by
  obtain ⟨-, h⟩ | ⟨-, -, h⟩ | ⟨_, -, -, -, h⟩ | ⟨_, i, -, -, -, h⟩ := cycle_cases s
  · exact ⟨_, h⟩
  · exact ⟨_, h⟩
  · exact ⟨_, h⟩
  · rw [h]; exact exec_answers_next i s

theorem runEvent_answers_next (e : Event) (s : State) : ∃ t, runEvent e s = .next t := by
  cases e with
  | cycle => exact cycle_answers_next s
  | tick => exact ⟨_, rfl⟩
  | keyWrite k => exact ⟨_, rfl⟩
  | frameRead => exact ⟨_, rfl⟩

/-! ### The state after one atomic step, and after a list of them -/

/-- The state that an atomic step answers (`runEvent_eq_next`); `s` itself stands for the answers no step gives. -/
def State.afterEvent (s : State) (e : Event) : State :=
  match runEvent e s with
  | .next t => t
  | .fault _ => s
  | .refused _ => s

/-- The state after the atomic steps `es`, in their order. -/
def State.afterEvents (s : State) (es : List Event) : State := es.foldl State.afterEvent s

theorem runEvent_eq_next (e : Event) (s : State) : runEvent e s = .next (s.afterEvent e) := by
  obtain ⟨t, h⟩ := runEvent_answers_next e s
  simp only [State.afterEvent, h]

theorem State.afterEvent_under (es : List Event) (d : Driver) (s : State) (e : Event) :
    (s.under es d).afterEvent e = (s.afterEvent e).under es d := by
  have h := runEvent_under es d s e
  rw [runEvent_eq_next, runEvent_eq_next] at h
  exact Host.Outcome.next.inj h

@[simp] theorem State.afterEvents_nil (s : State) : s.afterEvents [] = s := rfl

@[simp] theorem State.afterEvents_cons (s : State) (e : Event) (es : List Event) :
    s.afterEvents (e :: es) = (s.afterEvent e).afterEvents es := rfl

/-- No event touches the driver. -/
@[simp] theorem State.afterEvent_driver (s : State) (e : Event) : (s.afterEvent e).driver = s.driver := by
  simpa using congrArg State.driver (s.afterEvent_under s.schedule s.driver e)

@[simp] theorem State.afterEvents_driver (s : State) (es : List Event) : (s.afterEvents es).driver = s.driver := by
  induction es generalizing s with
  | nil => rfl
  | cons e es ih => rw [State.afterEvents_cons, ih, State.afterEvent_driver]

/-! ### The machine takes the steps of its schedule and of its driver -/

/-- One step of the machine takes the first event off the schedule. -/
theorem step_under_cons (s : State) (e : Event) (es : List Event) (d : Driver) :
    step (s.under (e :: es) d) = .next ((s.afterEvent e).under es d) := by
  rw [step, stepUnder_of_schedule _ (State.under_schedule (e :: es) d s), State.under_under, State.under_driver,
    runEvent_eq_next, State.afterEvent_under]

/-- As many steps as the schedule is long empty it, and lead to the state after its events. -/
theorem core_run_under_schedule (s : State) (es : List Event) (d : Driver) :
    Sys2Proof.core.run es.length (s.under es d) = .next ((s.afterEvents es).under [] d) := by
  induction es generalizing s with
  | nil => rfl
  | cons e es ih =>
    rw [List.length_cons, core_run_of_next (step_under_cons s e es d), ih, State.afterEvents_cons]

/-- An unconstrained driver at its place `k` takes the `k`-th event of the stream it follows, and moves on by one. -/
theorem stepUnder_under_free (σ : Nat → Event) (s : State) (k : Nat) :
    stepUnder σ (s.under [] (.free k)) = .next ((s.afterEvent (σ k)).under [] (.free (k + 1))) := by
  rw [stepUnder_of_free σ (State.under_schedule [] (.free k) s) (State.under_driver [] (.free k) s), State.under_under,
    runEvent_eq_next, State.afterEvent_under]

/-! ### The run along an endless sequence of events -/

/-- The run along `σ` from `s`: the states after its beginnings. -/
def State.along (s : State) (σ : Nat → Event) (n : Nat) : State := s.afterEvents ((List.range n).map σ)

theorem State.along_zero (s : State) (σ : Nat → Event) : s.along σ 0 = s := rfl

theorem State.along_succ (s : State) (σ : Nat → Event) (n : Nat) :
    s.along σ (n + 1) = (s.along σ n).afterEvent (σ n) := by
  simp [State.along, State.afterEvents, List.range_succ]

@[simp] theorem State.along_driver (s : State) (σ : Nat → Event) (n : Nat) : (s.along σ n).driver = s.driver :=
  State.afterEvents_driver s _

theorem runEvent_along (s : State) (σ : Nat → Event) (n : Nat) :
    runEvent (σ n) (s.along σ n) = .next (s.along σ (n + 1)) := by
  rw [State.along_succ, runEvent_eq_next]

/-- With the first `n` events as its schedule, the machine runs to the `n`-th state of the run. -/
theorem core_run_along (s : State) (σ : Nat → Event) (d : Driver) (n : Nat) :
    Sys2Proof.core.run n (s.under ((List.range n).map σ) d) = .next ((s.along σ n).under [] d) := by
  simpa [State.along] using core_run_under_schedule s ((List.range n).map σ) d

/-- An unconstrained driver that follows `σ` goes from each state of the run to the next. -/
theorem stepUnder_along (s : State) (σ : Nat → Event) (n : Nat) :
    stepUnder σ ((s.along σ n).under [] (.free n)) = .next ((s.along σ (n + 1)).under [] (.free (n + 1))) := by
  rw [stepUnder_under_free, State.along_succ]

/-- Settles O15. The endless run is `State.along`: as every atomic step answers a next state and sees neither schedule nor
driver, it is also the run of `step` under each beginning as a schedule, and the run of the unconstrained driver that
follows the sequence. -/
theorem everyEndlessInterleavingIsARun : Obligations.EveryEndlessInterleavingIsARun := by
  intro σ s
  refine ⟨s.along σ, s.along_zero σ, runEvent_along s σ, fun n => ?_, stepUnder_along s σ⟩
  change Sys2Proof.core.run n (s.under ((List.range n).map σ) s.driver) =
    .next ((s.along σ n).under [] (s.along σ n).driver)
  rw [State.along_driver, core_run_along]

end Sys2Proof.Machine
end

section
/-! PROOFS, family 10_state: what each kind of atomic step may write (spec/10_state.md R34). -/

namespace Sys2Proof.Machine

/-! ### KEY is written by no instruction -/

theorem State.push_keys {s t : State} {a : Word} (h : s.push a = some t) : t.keys = s.keys := by
  by_cases hroom : s.sp.val < Config.stackDepth
  · rw [State.push_of_room a hroom] at h
    cases h; rfl
  · simp [State.push, hroom] at h

theorem State.pop_keys {s t : State} {a : Word} (h : s.pop = some (a, t)) : t.keys = s.keys := by
  obtain ⟨_, _, -, -, rfl⟩ := State.pop_eq_some h
  rfl

@[simp] theorem State.keySkip_keys (s : State) (x : RegIx) (skipWhenDown : Bool) :
    (s.keySkip x skipWhenDown).keys = s.keys := by
  simp only [State.keySkip]
  split
  · exact State.raise_keys ..
  · exact State.skipIf_keys ..

/-- Only a call and a return go through an operation that may fail, and only the instructions that test an address or a
key have a second outcome; every other one is a chain of updates of fields other than KEY. -/
theorem exec_keys {i : Instr} {s t : State} (h : exec i s = .next t) : t.keys = s.keys := by
  cases i
  case op00EE =>
    simp only [exec, exec00EE] at h
    cases hpop : s.pop with
    | none => rw [hpop] at h; cases h; rfl
    | some p => rw [hpop] at h; cases h; exact (State.setPc_keys ..).trans (State.pop_keys hpop)
  case op2NNN nnn =>
    simp only [exec, exec2NNN] at h
    cases hpush : s.push s.pc with
    | none => rw [hpush] at h; cases h; rfl
    | some u => rw [hpush] at h; cases h; exact (State.setPc_keys ..).trans (State.push_keys hpush)
  case opFX0A x => simp only [exec, execFX0A] at h; split at h <;> cases h <;> rfl
  case opEX9E x => cases h; exact s.keySkip_keys x true
  case opEXA1 x => cases h; exact s.keySkip_keys x false
  case opDXYN x y n => simp only [exec, execDXYN] at h; split at h <;> cases h <;> rfl
  case opFX33 x => simp only [exec, execFX33] at h; split at h <;> cases h <;> rfl
  case opFX55 x => simp only [exec, execFX55] at h; split at h <;> cases h <;> rfl
  case opFX65 x => simp only [exec, execFX65] at h; split at h <;> cases h <;> rfl
  all_goals cases h; rfl

/-! ### What a cycle leaves as it is -/

theorem cycle_keys {s t : State} (h : cycle s = .next t) : t.keys = s.keys := by
  obtain ⟨-, hc⟩ | ⟨-, -, hc⟩ | ⟨op, -, -, -, hc⟩ | ⟨op, i, -, -, -, hc⟩ := cycle_cases s <;> rw [hc] at h
  · cases h; rfl
  · cases h; rfl
  · cases h; rfl
  · exact exec_keys h

/-- A cycle under a schedule and a driver answers under the same ones (`cycle_under`); here they are the state's own. -/
theorem cycle_schedule_driver {s t : State} (h : cycle s = .next t) :
    t.schedule = s.schedule ∧ t.driver = s.driver := by
  have hown : Host.Outcome.next t = onNext (State.under s.schedule s.driver) (.next t) := by
    simpa only [State.under_own, h] using cycle_under s.schedule s.driver s
  have ht : t = t.under s.schedule s.driver := Host.Outcome.next.inj hown
  rw [ht]
  exact ⟨rfl, rfl⟩

/-- Settles O9: a cycle by the three facts above, each host step by what it answers (`runEvent_hostStep`). -/
theorem eachStepWritesOnlyWhatItOwns : Obligations.EachStepWritesOnlyWhatItOwns := by
  refine ⟨fun s t h => ⟨cycle_keys h, cycle_schedule_driver h⟩, fun s => ?_, fun s k => ?_, fun s => ?_⟩
  · exact ⟨countDown s.dt, countDown s.st, (runEvent_hostStep s).1⟩
  · exact ⟨k, (runEvent_hostStep s).2.1 k⟩
  · exact ⟨false, (runEvent_hostStep s).2.2⟩

end Sys2Proof.Machine
end

section
/-! PROOFS, family 20_memory: what FX55 stored is what is read from those addresses, by the fetch too
(spec/20_memory.md R62). -/

namespace Sys2Proof.Machine

/-! ### What a completing FX55 leaves in memory -/

/-- R192 where every target byte exists. -/
theorem exec_opFX55_of_inside {x : RegIx} {s : State} (h : s.dataAddress + x.toNat ≤ 4095) :
    exec (.opFX55 x) s = .next ((s.setMem (s.mem.storeBytes s.dataAddress (s.regsUpTo x))).setI
      (s.i + BitVec.ofNat 16 (x.toNat + 1))).advance := by
  have hin : outOfMemory s.dataAddress (x.toNat + 1) = false :=
    (outOfMemory_eq_false_iff ..).mpr (Nat.succ_le_succ h)
  simp [exec, execFX55, hin]

/-- Register `r` of a stored block stands at offset `r`. -/
theorem State.load_storeBytes_regsUpTo (s : State) (m : Memory) (a : Nat) {x r : RegIx} (h : r.toNat ≤ x.toNat) :
    (m.storeBytes a (s.regsUpTo x)).load (a + r.toNat) = s.reg r := by
  rw [Memory.load_storeBytes, if_pos (Nat.le_add_right ..), Nat.add_sub_cancel_left, s.regsUpTo_getElem? x r h,
    Option.getD_some]

/-! ### The fetch reads those bytes -/

/-- Settles O57: the fetch reads the bytes at PC and PC + 1, which are offsets `r` and `r + 1` of the stored block. -/
theorem storedBytesAreWhatTheNextFetchReads : Obligations.StoredBytesAreWhatTheNextFetchReads := by
  refine fun x s hin => ⟨_, exec_opFX55_of_inside hin, fun u r r' hmem hr' hle hpc => ?_⟩
  have hhigh : u.mem.load u.pc.toNat = s.reg r := by
    rw [hpc, hmem]
    exact s.load_storeBytes_regsUpTo s.mem s.dataAddress (by omega)
  have hlow : u.mem.load (u.pc.toNat + 1) = s.reg r' := by
    rw [hpc, Nat.add_assoc, ← hr', hmem]
    exact s.load_storeBytes_regsUpTo s.mem s.dataAddress hle
  rw [State.fetchWord_of_inside (show u.pc.toNat + 1 < 4096 by omega), hhigh, hlow]

end Sys2Proof.Machine
end

section
/-! PROOFS, family 30_encoding: the decoder reads back what the encoder wrote (spec/30_encoding.md R71 to R73, D8). The
formats' field lemmas give the top nibble, which picks the group, and the fields the group is then told apart by. -/

namespace Sys2Proof.Machine

/-! ### The group a formatted word is decoded in -/

theorem decode_formatXYN_group8 (x y : RegIx) (fn : BitVec 4) :
    decode (formatXYN 0x8#4 x y fn) = decodeGroup8 x y fn := by
  simp [decode]

theorem decode_formatX_groupE (x : RegIx) (fn : Byte) : decode (formatX 0xE#4 x fn) = decodeGroupE x fn := by
  simp [decode]

theorem decode_formatX_groupF (x : RegIx) (fn : Byte) : decode (formatX 0xF#4 x fn) = decodeGroupF x fn := by
  simp [decode]

/-! ### The round trip -/

/-- By the instruction's group: one fixed word each in group 0, the top nibble alone or with a low nibble of 0 for the
single-instruction groups, and the function code for groups 8, E and F. -/
@[simp] theorem decode_encode (i : Instr) : decode (encode i) = some i := by
  cases i
  case op00E0 | op00EE => rfl
  case op1NNN nnn | op2NNN nnn | opANNN nnn => simp [encode, decode]
  case op3XNN x nn | op4XNN x nn | op6XNN x nn | op7XNN x nn => simp [encode, decode]
  case op5XY0 x y | op9XY0 x y => simp [encode, decode]
  case opDXYN x y n => simp [encode, decode]
  case op8XY0 x y | op8XY1 x y | op8XY2 x y | op8XY3 x y | op8XY4 x y | op8XY5 x y | op8XY6 x y | op8XY7 x y
      | op8XYE x y =>
    exact decode_formatXYN_group8 x y _
  case opEX9E x | opEXA1 x => exact decode_formatX_groupE x _
  case opFX07 x | opFX0A x | opFX15 x | opFX18 x | opFX1E x | opFX29 x | opFX33 x | opFX55 x | opFX65 x =>
    exact decode_formatX_groupF x _

/-- The two bytes of an instruction make its word again (`opcodeOf_bytes`), and no byte after them is read (R54, R70). -/
theorem decodeBytes_encodeBytes_append (i : Instr) (rest : List Byte) :
    decodeBytes (encodeBytes i ++ rest) = (decode (encode i)).map fun j => (j, rest) := by
  simp only [encodeBytes, List.cons_append, List.nil_append, decodeBytes, opcodeOf_bytes]

/-- Settles O1: the word by the case split of `decode_encode`, the bytes by the word they make. -/
theorem encodedInstructionDecodesToItself : Obligations.EncodedInstructionDecodesToItself := by
  refine fun i rest => ⟨decode_encode i, ?_⟩
  rw [decodeBytes_encodeBytes_append, decode_encode, Option.map_some]

end Sys2Proof.Machine
end

section
/-! PROOFS, family 40_control_flow: where an instruction leaves PC, and that a jump and a skip change nothing but PC
(spec/40_control_flow.md R101, R103, R105 to R108). -/

namespace Sys2Proof.Machine

/-! ### Setting PC changes nothing else -/

/-- A 12-bit address zero-extended keeps its value. -/
theorem absAddress_toNat (nnn : Addr12) : (absAddress nnn).toNat = nnn.toNat :=
  BitVec.toNat_setWidth_of_le (by decide)

theorem onlyRegs_setPc (s : State) (w : Word) : OnlyRegs [] s (s.setPc w) :=
  ⟨fun r _ => s.reg_setPc w r, s.setPc_i w, fun _ => rfl, ⟨s.setPc_sp w, s.setPc_stk w⟩,
    ⟨s.setPc_fb w, s.setPc_dirty w⟩, ⟨s.setPc_dt w, s.setPc_st w⟩,
    ⟨s.setPc_halted w, s.setPc_cause w, s.setPc_info w⟩,
    ⟨s.setPc_keys w, s.setPc_schedule w, s.setPc_driver w, s.setPc_freeIx w⟩⟩

theorem onlyRegs_skipIf (s : State) (taken : Bool) : OnlyRegs [] s (s.skipIf taken) := onlyRegs_setPc s _

/-- Settles O31: the jump is one write of PC, of the zero-extended address. -/
theorem jumpGoesToItsAddress : Obligations.JumpGoesToItsAddress :=
  fun nnn s => ⟨s.setPc (absAddress nnn), rfl, absAddress_toNat nnn, onlyRegs_setPc s _⟩

/-! ### The conditions of the skips -/

theorem sameByte_iff_toNat_eq (a b : Byte) : sameByte a b = true ↔ a.toNat = b.toNat :=
  beq_iff_eq.trans BitVec.toNat_inj.symm

theorem not_sameByte_iff_toNat_ne (a b : Byte) : (!sameByte a b) = true ↔ a.toNat ≠ b.toNat := by
  rw [Bool.not_eq_true', ← Bool.not_eq_true, sameByte_iff_toNat_eq]

/-- Where a skip leaves PC, told by what its condition decides. -/
theorem State.skipIf_pc_of_iff {c : Bool} {p : Prop} [Decidable p] (s : State) (h : c = true ↔ p) :
    (s.skipIf c).pc = if p then s.pc + 4#16 else s.pc + 2#16 :=
  (s.skipIf_pc c).trans (if_congr h rfl rfl)

/-- Settles O36: each is one skip, on the equality of the two bytes or its negation. -/
theorem immediateSkipsCompareAllEightBits : Obligations.ImmediateSkipsCompareAllEightBits :=
  ⟨fun _ _ s => ⟨_, rfl, s.skipIf_pc_of_iff (sameByte_iff_toNat_eq ..), onlyRegs_skipIf s _⟩,
    fun _ _ s => ⟨_, rfl, s.skipIf_pc_of_iff (not_sameByte_iff_toNat_ne ..), onlyRegs_skipIf s _⟩⟩

/-- Settles O37: as the immediate skips, with VY as the second byte. -/
theorem registerSkipsCompareAllEightBits : Obligations.RegisterSkipsCompareAllEightBits :=
  ⟨fun _ _ s => ⟨_, rfl, s.skipIf_pc_of_iff (sameByte_iff_toNat_eq ..), onlyRegs_skipIf s _⟩,
    fun _ _ s => ⟨_, rfl, s.skipIf_pc_of_iff (not_sameByte_iff_toNat_ne ..), onlyRegs_skipIf s _⟩⟩

/-! ### Where PC can be after one instruction -/

/-- The places R101 names for PC after an instruction that completes. -/
def PcTarget (i : Instr) (s t : State) : Prop :=
  t.pc = s.pc + 2#16 ∨
  (isSkip i = true ∧ t.pc = s.pc + 4#16) ∨
  (∃ nnn, (i = .op1NNN nnn ∨ i = .op2NNN nnn) ∧ t.pc.toNat = nnn.toNat) ∨
  (i = .op00EE ∧ ∃ k, ∃ hk : k < 16, s.sp.val = k + 1 ∧ t.pc = s.stk[k] + 2#16) ∨
  (∃ x, i = .opFX0A x ∧ (∀ k < 16, s.keyDown k = false) ∧ t.pc = s.pc)

theorem pcTarget_advance (i : Instr) {s u : State} (h : u.pc = s.pc) : PcTarget i s u.advance :=
  .inl (by rw [State.advance_pc, h])

theorem pcTarget_skipIf {i : Instr} (s : State) (taken : Bool) (h : isSkip i = true) :
    PcTarget i s (s.skipIf taken) := by
  cases taken
  · exact .inl rfl
  · exact .inr (.inl ⟨h, rfl⟩)

/-- An instruction that faulted kept PC; one that completed left the latch alone and PC at a target of R101. -/
def FaultedOrAtTarget (i : Instr) (s t : State) : Prop :=
  (t.halted = true ∧ t.pc = s.pc) ∨ (t.halted = s.halted ∧ PcTarget i s t)

/-- A key skip faults on an index above 15 and is an ordinary skip otherwise. -/
theorem faultedOrAtTarget_keySkip {i : Instr} (s : State) (x : RegIx) (skipWhenDown : Bool) (h : isSkip i = true) :
    FaultedOrAtTarget i s (s.keySkip x skipWhenDown) := by
  simp only [State.keySkip]
  split
  · exact .inl ⟨rfl, rfl⟩
  · exact .inr ⟨rfl, pcTarget_skipIf s _ h⟩

/-- The form of the instructions that test an address: a fault taken in `f`, or the next instruction after the work `u`. -/
theorem faultedOrAtTarget_of_guarded {i : Instr} {s f u t : State} {c : Cause} {info : Word} {outside : Prop}
    [Decidable outside] (h : (if outside then .next (f.raise c info) else .next u.advance : Result) = .next t)
    (hf : f.pc = s.pc) (hu : u.halted = s.halted ∧ u.pc = s.pc) : FaultedOrAtTarget i s t := by
  obtain ⟨hlatch, hpc⟩ := hu
  split at h <;> cases h
  · exact .inl ⟨rfl, hf⟩
  · exact .inr ⟨hlatch, pcTarget_advance i hpc⟩

/-- By the kind of instruction: return, call, jump, skip, key wait, the four that test addresses, and the rest, whose last
act is to go on to the next instruction. -/
theorem exec_faultedOrAtTarget {i : Instr} {s t : State} (h : exec i s = .next t) : FaultedOrAtTarget i s t := by
  cases i
  case op00EE =>
    simp only [exec, exec00EE] at h
    cases hpop : s.pop with
    | none => rw [hpop] at h; cases h; exact .inl ⟨rfl, rfl⟩
    | some p =>
      obtain ⟨a, u⟩ := p
      rw [hpop] at h
      obtain ⟨k, hk, hsp, rfl, rfl⟩ := State.pop_eq_some hpop
      cases h
      exact .inr ⟨rfl, .inr (.inr (.inr (.inl ⟨rfl, k, hk, hsp, rfl⟩)))⟩
  case op1NNN nnn => cases h; exact .inr ⟨rfl, .inr (.inr (.inl ⟨nnn, .inl rfl, absAddress_toNat nnn⟩))⟩
  case op2NNN nnn =>
    simp only [exec, exec2NNN] at h
    by_cases hroom : s.sp.val < Config.stackDepth
    · rw [State.push_of_room s.pc hroom] at h
      cases h
      exact .inr ⟨rfl, .inr (.inr (.inl ⟨nnn, .inr rfl, absAddress_toNat nnn⟩))⟩
    · rw [(s.push_eq_none_iff s.pc).mpr (by have := s.sp.isLt; omega)] at h
      cases h
      exact .inl ⟨rfl, rfl⟩
  case op3XNN x nn | op4XNN x nn | op5XY0 x y | op9XY0 x y => cases h; exact .inr ⟨rfl, pcTarget_skipIf s _ rfl⟩
  case opEX9E x | opEXA1 x => cases h; exact faultedOrAtTarget_keySkip s x _ rfl
  case opFX0A x =>
    simp only [exec, execFX0A] at h
    cases hkey : s.lowestKeyDown with
    | none =>
      rw [hkey] at h
      cases h
      exact .inr ⟨rfl, .inr (.inr (.inr (.inr ⟨x, rfl, s.lowestKeyDown_eq_none_iff.mp hkey, rfl⟩)))⟩
    | some k => rw [hkey] at h; cases h; exact .inr ⟨rfl, pcTarget_advance _ rfl⟩
  case opDXYN x y n | opFX33 x | opFX55 x | opFX65 x => exact faultedOrAtTarget_of_guarded h rfl ⟨rfl, rfl⟩
  all_goals cases h; exact .inr ⟨rfl, pcTarget_advance _ rfl⟩

/-- Settles O13: a machine that was running is halted afterwards exactly if the instruction faulted. -/
theorem pcAfterAnInstruction : Obligations.PcAfterAnInstruction := by
  intro i s t hrun h
  obtain ⟨hhalted, hpc⟩ | ⟨hlatch, htarget⟩ := exec_faultedOrAtTarget h
  · exact ⟨fun _ => hpc, fun hrun' => absurd hhalted (Bool.eq_false_iff.mp hrun')⟩
  · exact ⟨fun hhalted => absurd (hlatch.symm.trans hhalted) (Bool.eq_false_iff.mp hrun), fun _ => htarget⟩

end Sys2Proof.Machine
end

section
/-! PROOFS, family 41_load_alu: the loads, copies and logic, each one write of VX and then the next instruction
(spec/41_load_alu.md R122 to R127). -/

namespace Sys2Proof.Machine

/-! ### Frames of register writes -/

theorem OnlyRegs.refl (xs : List RegIx) (s : State) : OnlyRegs xs s s :=
  ⟨fun _ _ => rfl, rfl, fun _ => rfl, ⟨rfl, rfl⟩, ⟨rfl, rfl⟩, ⟨rfl, rfl⟩, ⟨rfl, rfl, rfl⟩, ⟨rfl, rfl, rfl, rfl⟩⟩

/-- A write of a listed register stays within the list; it touches no field but the register file. -/
theorem OnlyRegs.setReg {xs : List RegIx} {s t : State} (h : OnlyRegs xs s t) {x : RegIx} (hx : x ∈ xs) (b : Byte) :
    OnlyRegs xs s (t.setReg x b) := by
  obtain ⟨hregs, hrest⟩ := h
  refine ⟨fun r hr => ?_, hrest⟩
  have hne : x ≠ r := fun heq => hr (heq ▸ hx)
  rw [State.reg_setReg_ne t hne, hregs r hr]

/-- PC is in no frame of `OnlyRegs`, so going on to the next instruction keeps it. -/
theorem OnlyRegs.advance {xs : List RegIx} {s t : State} (h : OnlyRegs xs s t) : OnlyRegs xs s t.advance := h

/-! ### One register write, then the next instruction -/

theorem State.reg_advance_setReg_same (s : State) (x : RegIx) (b : Byte) : (s.setReg x b).advance.reg x = b := by
  rw [State.reg_advance, State.reg_setReg_same]

theorem State.advance_setReg_pc (s : State) (x : RegIx) (b : Byte) : (s.setReg x b).advance.pc = s.pc + 2#16 := by
  rw [State.advance_pc, State.setReg_pc]

theorem onlyRegs_advance_setReg (s : State) (x : RegIx) (b : Byte) : OnlyRegs [x] s (s.setReg x b).advance :=
  ((OnlyRegs.refl [x] s).setReg (List.mem_singleton_self x) b).advance

/-- An instruction that writes `b` to VX and goes on completes with `b` in VX and nothing else changed but PC. -/
theorem exec_writesOnlyVx {i : Instr} {s : State} {x : RegIx} {b : Byte}
    (h : exec i s = .next (s.setReg x b).advance) :
    ∃ t, exec i s = .next t ∧ t.reg x = b ∧ t.pc = s.pc + 2#16 ∧ OnlyRegs [x] s t :=
  ⟨_, h, s.reg_advance_setReg_same x b, s.advance_setReg_pc x b, onlyRegs_advance_setReg s x b⟩

/-- Settles O38: each is one write of VX, and byte addition wraps at 256. -/
theorem immediateLoadAndAddWriteOnlyVx : Obligations.ImmediateLoadAndAddWriteOnlyVx := by
  refine ⟨fun x nn s => exec_writesOnlyVx rfl, fun x nn s => ?_⟩
  obtain ⟨t, hexec, hx, hframe⟩ := exec_writesOnlyVx (i := .op7XNN x nn) (s := s) rfl
  exact ⟨t, hexec, by rw [hx, BitVec.toNat_add], hframe⟩

/-- What the three logic instructions share: the byte written to VX is known bit by bit. -/
theorem exec_writesBitsOfVx {i : Instr} {s : State} {x : RegIx} {b : Byte} {bit : Nat → Bool}
    (h : exec i s = .next (s.setReg x b).advance) (hbit : ∀ k, b.getLsbD k = bit k) :
    ∃ t, exec i s = .next t ∧ (∀ k < 8, (t.reg x).getLsbD k = bit k) ∧ t.pc = s.pc + 2#16 ∧ OnlyRegs [x] s t := by
  obtain ⟨t, hexec, hx, hframe⟩ := exec_writesOnlyVx h
  exact ⟨t, hexec, fun k _ => by rw [hx, hbit], hframe⟩

/-- Settles O39: each is one write of VX, of VY or of the OR, AND or XOR of the two bytes, which act on each bit. -/
theorem copyAndLogicWriteOnlyVx : Obligations.CopyAndLogicWriteOnlyVx :=
  ⟨fun _ _ _ => exec_writesOnlyVx rfl,
    fun _ _ _ => exec_writesBitsOfVx rfl fun _ => BitVec.getLsbD_or,
    fun _ _ _ => exec_writesBitsOfVx rfl fun _ => BitVec.getLsbD_and,
    fun _ _ _ => exec_writesBitsOfVx rfl fun _ => BitVec.getLsbD_xor⟩

end Sys2Proof.Machine
end

section
/-! PROOFS, family 42_display: the clear, and what a draw does to each pixel and to VF (spec/42_display.md R152 to R155). The
sprite engine's laws speak of offsets around the screen's edges; here they are told as the pixels `spriteCovers` names. -/

namespace Sys2Proof.Machine

/-! ### The clear -/

/-- A write of the display touches no field but the framebuffer and the dirty flag, and PC is in no frame. -/
theorem onlyDisplay_advance_setDisplay (s : State) (fb : Framebuffer) : OnlyDisplay [] s (s.setDisplay fb).advance :=
  ⟨fun _ _ => rfl, rfl, fun _ => rfl, ⟨rfl, rfl⟩, ⟨rfl, rfl⟩, ⟨rfl, rfl, rfl⟩, ⟨rfl, rfl, rfl, rfl⟩⟩

/-- Settles O44: the clear is one write of the display, with every pixel off. -/
theorem clearTurnsEveryPixelOff : Obligations.ClearTurnsEveryPixelOff :=
  fun s => ⟨(s.setDisplay Framebuffer.clear).advance, rfl, Framebuffer.pixel_clear, rfl, rfl,
    onlyDisplay_advance_setDisplay s _⟩

/-! ### The draw of a sprite in memory -/

/-- What DXYN draws from `s`: the new framebuffer and the collision flag (R154). -/
def State.drawn (s : State) (x y : RegIx) (n : Height) : Framebuffer × Bool :=
  drawSprite s.fb (s.reg x) (s.reg y) (s.mem.loadBytes s.dataAddress n.toNat)

/-- R154 where every sprite byte exists. -/
theorem exec_opDXYN_of_inside {x y : RegIx} {n : Height} {s : State} (h : s.dataAddress + n.toNat ≤ 4096) :
    exec (.opDXYN x y n) s =
      .next ((s.setDisplay (s.drawn x y n).1).setFlag (s.drawn x y n).2).advance := by
  have hin : outOfMemory s.dataAddress n.toNat = false := (outOfMemory_eq_false_iff ..).mpr h
  simp [exec, execDXYN, hin, State.drawn]

/-- A sprite of at most 15 rows is no taller than the screen, so no two of its rows meet. -/
theorem spriteRows_le_dispH (s : State) (n : Height) :
    (s.mem.loadBytes s.dataAddress n.toNat).length ≤ Config.dispH := by
  rw [Memory.loadBytes_length]
  exact Nat.le_of_lt (n.isLt.trans (by decide))

/-! ### The pixels -/

/-- A byte of the sprite is the byte of memory at that offset from I. -/
theorem spriteRow_eq_some_iff {s : State} {n : Height} {r : Nat} {b : Byte} :
    (s.mem.loadBytes s.dataAddress n.toNat)[r]? = some b ↔ r < n.toNat ∧ s.mem.load (s.dataAddress + r) = b := by
  rw [Memory.loadBytes_getElem?, Option.ite_none_right_eq_some, Option.some.injEq]

/-- The sprite bit over a pixel is set iff there is a byte for its row, and its column is one of the eight and set. -/
theorem spriteOver_eq_true_iff {px py : Nat} {rows : List Byte} {y : Fin Config.dispH} {x : Fin Config.dispW} :
    spriteOver px py rows y x = true ↔
      ∃ b, rows[rowOffset py y]? = some b ∧ columnOffset px x < 8 ∧ spriteBit b (columnOffset px x) = true := by
  unfold spriteOver
  cases rows[rowOffset py y]? <;> simp

/-- The sprite bit that lands on a pixel is set iff the sprite covers it: the offsets of the pixel from the origin are the
only row and column that can land there. -/
theorem spriteOver_iff_spriteCovers {s : State} {x y : RegIx} {n : Height} {py : Fin Config.dispH}
    {px : Fin Config.dispW} :
    spriteOver ((s.reg x).toNat % Config.dispW) ((s.reg y).toNat % Config.dispH)
      (s.mem.loadBytes s.dataAddress n.toNat) py px = true ↔ spriteCovers s x y n py px := by
  have hn : n.toNat < Config.dispH := n.isLt.trans (by decide)
  have h8 : 8 < Config.dispW := by decide
  simp only [spriteOver_eq_true_iff, spriteRow_eq_some_iff]
  constructor
  · rintro ⟨b, ⟨hr, rfl⟩, hc, hbit⟩
    exact ⟨_, _, hr, hc, hbit, ((row_hit_iff (hr.trans hn)).mpr rfl).symm,
      ((column_hit_iff (hc.trans h8)).mpr rfl).symm⟩
  · rintro ⟨r, c, hr, hc, hbit, hy, hx⟩
    obtain rfl := (row_hit_iff (hr.trans hn)).mp hy.symm
    obtain rfl := (column_hit_iff (hc.trans h8)).mp hx.symm
    exact ⟨_, ⟨hr, rfl⟩, hc, hbit⟩

/-- A covered pixel is inverted. -/
theorem State.drawn_pixel_of_covered {s : State} {x y : RegIx} {n : Height} {py : Fin Config.dispH}
    {px : Fin Config.dispW} (h : spriteCovers s x y n py px) :
    (s.drawn x y n).1.pixel py px = !s.fb.pixel py px := by
  rw [State.drawn, drawSprite_pixel _ _ _ (spriteRows_le_dispH s n), spriteOver_iff_spriteCovers.mpr h, Bool.xor_true]

/-- Every other pixel is as before. -/
theorem State.drawn_pixel_of_not_covered {s : State} {x y : RegIx} {n : Height} {py : Fin Config.dispH}
    {px : Fin Config.dispW} (h : ¬ spriteCovers s x y n py px) :
    (s.drawn x y n).1.pixel py px = s.fb.pixel py px := by
  rw [State.drawn, drawSprite_pixel _ _ _ (spriteRows_le_dispH s n),
    Bool.eq_false_iff.mpr (mt spriteOver_iff_spriteCovers.mp h), Bool.xor_false]

/-- So a draw turned a pixel off iff the sprite covers it and it was on. -/
theorem State.drawn_turnsOff_iff {s : State} {x y : RegIx} {n : Height} {py : Fin Config.dispH}
    {px : Fin Config.dispW} :
    s.fb.pixel py px = true ∧ (s.drawn x y n).1.pixel py px = false ↔
      spriteCovers s x y n py px ∧ s.fb.pixel py px = true := by
  by_cases h : spriteCovers s x y n py px
  · simp [State.drawn_pixel_of_covered h, h]
  · simp [State.drawn_pixel_of_not_covered h, h]

/-! ### The collision flag -/

/-- The draw reports a collision iff it covers a pixel that was on. -/
theorem State.drawn_collision_iff {s : State} {x y : RegIx} {n : Height} :
    (s.drawn x y n).2 = true ↔ ∃ py px, spriteCovers s x y n py px ∧ s.fb.pixel py px = true := by
  simp only [State.drawn, drawSprite, drawRows_collision _ _ _ (spriteRows_le_dispH s n), Bool.false_eq_true, false_or,
    spriteRow_eq_some_iff]
  constructor
  · rintro ⟨r, c, b, ⟨hr, rfl⟩, hc, hbit, hon⟩
    exact ⟨_, _, ⟨r, c, hr, hc, hbit, rfl, rfl⟩, hon⟩
  · rintro ⟨py, px, ⟨r, c, hr, hc, hbit, hy, hx⟩, hon⟩
    obtain rfl : py = Fin.ofNat Config.dispH _ := Fin.ext hy
    obtain rfl : px = Fin.ofNat Config.dispW _ := Fin.ext hx
    exact ⟨r, c, _, ⟨hr, rfl⟩, hc, hbit, hon⟩

theorem State.reg_setFlag_eq_one_or_zero (s : State) (c : Bool) :
    (s.setFlag c).reg regF = 1#8 ∨ (s.setFlag c).reg regF = 0#8 := by
  cases c <;> simp

theorem State.reg_setFlag_eq_one_iff (s : State) (c : Bool) : (s.setFlag c).reg regF = 1#8 ↔ c = true := by
  cases c <;> simp

/-- Settles O46: VF is the collision flag, a covered pixel that was on; by the inversion these are the pixels turned off. -/
theorem collisionMeansAPixelWasTurnedOff : Obligations.CollisionMeansAPixelWasTurnedOff := by
  intro x y n s t hin hexec
  obtain rfl := Host.Outcome.next.inj ((exec_opDXYN_of_inside hin).symm.trans hexec)
  have hflag :=
    ((s.setDisplay (s.drawn x y n).1).reg_setFlag_eq_one_iff (s.drawn x y n).2).trans State.drawn_collision_iff
  exact ⟨State.reg_setFlag_eq_one_or_zero _ _, hflag, fun _ _ => State.drawn_pixel_of_covered,
    fun _ _ => State.drawn_pixel_of_not_covered,
    hflag.trans (exists_congr fun _ => exists_congr fun _ => State.drawn_turnsOff_iff.symm)⟩

end Sys2Proof.Machine
end

section
/-! PROOFS, family 43_keypad_timers: the key wait, the timer instructions, and any number of ticks
(spec/43_keypad_timers.md R174 to R181). Both timers are the same byte counting down, so a run of ticks is `countDown`
iterated on each of them, and a waiting FX0A is a fixed point of `cycle` that no tick disturbs. -/

namespace Sys2Proof.Machine

/-! ### Any number of ticks (R179) -/

theorem countDown_iterate_toNat (n : Nat) (t : Byte) : (countDown^[n] t).toNat = t.toNat - n := by
  induction n with
  | zero => rfl
  | succ n ih => rw [Function.iterate_succ_apply', countDown_toNat, ih, Nat.sub_sub]

/-- Ticks count each timer down by itself and change nothing else. -/
theorem State.tick_iterate (n : Nat) (s : State) :
    State.tick^[n] s = { s with dt := countDown^[n] s.dt, st := countDown^[n] s.st } := by
  induction n generalizing s with
  | zero => rfl
  | succ n ih => rw [Function.iterate_succ_apply, ih]; rfl

theorem State.tick_iterate_dt_toNat (n : Nat) (s : State) : (State.tick^[n] s).dt.toNat = s.dt.toNat - n := by
  rw [State.tick_iterate, countDown_iterate_toNat]

theorem State.tick_iterate_st_toNat (n : Nat) (s : State) : (State.tick^[n] s).st.toNat = s.st.toNat - n := by
  rw [State.tick_iterate, countDown_iterate_toNat]

/-- Settles O26: one tick is one `countDown` of each timer, `n` ticks are `n` of them. -/
theorem ticksCountBothTimersDownToZero : Obligations.TicksCountBothTimersDownToZero :=
  ⟨fun s => ⟨s.tick, rfl, countDown_toNat s.dt, countDown_toNat s.st, rfl⟩,
    fun n s => ⟨s.tick_iterate_dt_toNat n, s.tick_iterate_st_toNat n⟩⟩

/-! ### The timer instructions (R176 to R178, R181) -/

theorem exec_opFX07 (x : RegIx) (s : State) : exec (.opFX07 x) s = .next (s.setReg x s.dt).advance := rfl

theorem exec_opFX15 (x : RegIx) (s : State) : exec (.opFX15 x) s = .next (s.setDt (s.reg x)).advance := rfl

theorem exec_opFX18 (x : RegIx) (s : State) : exec (.opFX18 x) s = .next (s.setSt (s.reg x)).advance := rfl

/-- Setting either timer touches no field but that timer, and PC is in no frame. -/
theorem onlyTimers_advance (s : State) (dt st : Byte) :
    OnlyTimers s ({ s with dt := dt, st := st } : State).advance :=
  ⟨fun _ _ => rfl, rfl, fun _ => rfl, ⟨rfl, rfl⟩, ⟨rfl, rfl⟩, ⟨rfl, rfl, rfl⟩, ⟨rfl, rfl, rfl, rfl⟩⟩

/-- Settles O51: FX07 is one write of VX, FX15 and FX18 are one write of a timer. -/
theorem timerInstructionsMoveOneByte : Obligations.TimerInstructionsMoveOneByte :=
  ⟨fun x s => exec_writesOnlyVx (exec_opFX07 x s),
    fun x s => ⟨_, exec_opFX15 x s, rfl, rfl, rfl, onlyTimers_advance s (s.reg x) s.st⟩,
    fun x s => ⟨_, exec_opFX18 x s, rfl, rfl, rfl, onlyTimers_advance s s.dt (s.reg x)⟩⟩

/-- FX07 any number of ticks after FX15 reads the byte written less the ticks, floored at 0. -/
theorem exec_opFX07_after_opFX15_and_ticks (x y : RegIx) (n : Nat) (s : State) :
    ∃ t u, exec (.opFX15 x) s = .next t ∧ exec (.opFX07 y) (State.tick^[n] t) = .next u ∧
      (u.reg y).toNat = (s.reg x).toNat - n := by
  refine ⟨_, _, exec_opFX15 x s, exec_opFX07 y _, ?_⟩
  rw [State.reg_advance_setReg_same, State.tick_iterate_dt_toNat, State.advance_dt, State.setDt_dt]

/-- Settles O52: a value `w` up to the one written is read after as many ticks as it lies below. -/
theorem delayReadBackIsAnyValueUpToTheOneWritten : Obligations.DelayReadBackIsAnyValueUpToTheOneWritten := by
  refine ⟨exec_opFX07_after_opFX15_and_ticks, fun x y s w hw => ?_⟩
  obtain ⟨t, u, hwrite, hread, hval⟩ := exec_opFX07_after_opFX15_and_ticks x y ((s.reg x).toNat - w) s
  exact ⟨_, t, u, hwrite, hread, hval.trans (Nat.sub_sub_self hw)⟩

/-! ### The key wait (R174) -/

/-- A key of the 16 that is down, with none below it down, is the key found. -/
theorem State.lowestKeyDown_of_lowest {s : State} {k : Nat} (hk : k < 16) (hdown : s.keyDown k = true)
    (hlow : ∀ j < k, s.keyDown j = false) : s.lowestKeyDown = some k :=
  List.find?_range_eq_some.mpr ⟨hdown, List.mem_range.mpr hk, fun j hj => by rw [hlow j hj]; rfl⟩

theorem exec_opFX0A_of_key {s : State} {k : Nat} (x : RegIx) (h : s.lowestKeyDown = some k) :
    exec (.opFX0A x) s = .next (s.setReg x (u8 k)).advance := by
  simp only [exec, execFX0A, h]

theorem exec_opFX0A_of_no_key {s : State} (x : RegIx) (h : ∀ k < 16, s.keyDown k = false) :
    exec (.opFX0A x) s = .next s := by
  simp only [exec, execFX0A, s.lowestKeyDown_eq_none_iff.mpr h]

/-- Settles O49: with a key down one write of VX, with none down no write at all. -/
theorem keyWaitTakesTheLowestKeyOrWaits : Obligations.KeyWaitTakesTheLowestKeyOrWaits := by
  refine ⟨fun x s k hk hdown hlow => ?_, fun x s hnone => exec_opFX0A_of_no_key x hnone⟩
  obtain ⟨t, hexec, hx, hframe⟩ :=
    exec_writesOnlyVx (exec_opFX0A_of_key x (State.lowestKeyDown_of_lowest hk hdown hlow))
  have hbyte : (u8 k).toNat = k := Nat.mod_eq_of_lt (hk.trans (by decide))
  exact ⟨t, hexec, by rw [hx, hbyte], hframe⟩

/-! ### Cycles and ticks while FX0A waits (R175) -/

/-- The machine runs, the next instruction is an FX0A, and no key is down. -/
def State.WaitsForKey (s : State) : Prop :=
  s.running ∧ ∃ op x, s.fetchWord = some op ∧ decode op = some (.opFX0A x) ∧ ∀ k < 16, s.keyDown k = false

/-- A tick writes nothing the wait depends on. -/
theorem State.WaitsForKey.tick {s : State} (h : s.WaitsForKey) : s.tick.WaitsForKey := h

/-- A waiting machine is a fixed point of the cycle. -/
theorem State.WaitsForKey.cycle_eq {s : State} (h : s.WaitsForKey) : cycle s = .next s := by
  obtain ⟨hrun, op, x, hfetch, hdecode, hnone⟩ := h
  have hexec : cycle s = exec (.opFX0A x) s := by
    simp only [cycle, show s.halted = false from hrun, hfetch, hdecode, Bool.false_eq_true, if_false]
  rw [hexec, exec_opFX0A_of_no_key x hnone]

theorem State.WaitsForKey.afterEvent_cycle {s : State} (h : s.WaitsForKey) : s.afterEvent .cycle = s :=
  Host.Outcome.next.inj ((runEvent_eq_next .cycle s).symm.trans h.cycle_eq)

theorem State.afterEvent_tick (s : State) : s.afterEvent .tick = s.tick := rfl

/-- `n` cycles and ticks in turn. -/
def waitRounds (n : Nat) : List Event := (List.replicate n [Event.cycle, Event.tick]).flatten

theorem waitRounds_succ (n : Nat) : waitRounds (n + 1) = .cycle :: .tick :: waitRounds n := rfl

theorem waitRounds_length (n : Nat) : (waitRounds n).length = 2 * n := by
  simp [waitRounds, Nat.mul_comm]

/-- Of the rounds only the ticks are felt. -/
theorem State.WaitsForKey.afterEvents_waitRounds {s : State} (h : s.WaitsForKey) (n : Nat) :
    s.afterEvents (waitRounds n) = State.tick^[n] s := by
  induction n generalizing s with
  | zero => rfl
  | succ n ih =>
    rw [waitRounds_succ, State.afterEvents_cons, h.afterEvent_cycle, State.afterEvents_cons, State.afterEvent_tick,
      ih h.tick, Function.iterate_succ_apply]

/-- A driver with nothing scheduled before it begins its lap as if the lap were scheduled. -/
theorem step_of_repeats {s : State} {e : Event} {es : List Event} (hs : s.schedule = [])
    (hd : s.driver = .repeats e es) : step s = step (s.under (e :: es) s.driver) := by
  rw [step, stepUnder_of_repeats _ hs hd, runEvent_under, runEvent_eq_next, step_under_cons]
  rfl

/-- Two steps under the driver that repeats the round come to one tick. -/
theorem State.WaitsForKey.core_run_round {s : State} (h : s.WaitsForKey) (hs : s.schedule = [])
    (hd : s.driver = .repeats .cycle [.tick]) (n : Nat) :
    Sys2Proof.core.run (n + 2) s = Sys2Proof.core.run n s.tick := by
  have hcycle : step s = .next (s.under [.tick] s.driver) := by
    rw [step_of_repeats hs hd, step_under_cons, h.afterEvent_cycle]
  have htick : step (s.under [.tick] s.driver) = .next s.tick := by
    rw [step_under_cons, State.afterEvent_tick, ← hs]
    rfl
  rw [core_run_of_next hcycle, core_run_of_next htick]

theorem State.WaitsForKey.core_run_rounds {s : State} (h : s.WaitsForKey) (hs : s.schedule = [])
    (hd : s.driver = .repeats .cycle [.tick]) (n : Nat) :
    Sys2Proof.core.run (2 * n) s = .next (State.tick^[n] s) := by
  induction n generalizing s with
  | zero => rfl
  | succ n ih => rw [Nat.mul_succ, h.core_run_round hs hd, ih h.tick hs hd, Function.iterate_succ_apply]

/-- Settles O50: the schedule by the state after its events, the driver round by round. -/
theorem timersRunDownDuringAKeyWait : Obligations.TimersRunDownDuringAKeyWait := by
  intro n s op x hrun hfetch hdecode hnone
  have hwait : s.WaitsForKey := ⟨hrun, op, x, hfetch, hdecode, hnone⟩
  refine ⟨?_, fun hs hd => hwait.core_run_rounds hs hd n⟩
  have hsched := core_run_under_schedule s (waitRounds n) s.driver
  rw [waitRounds_length, hwait.afterEvents_waitRounds, State.tick_iterate] at hsched
  rw [State.tick_iterate]
  exact hsched

end Sys2Proof.Machine
end

section
/-! PROOFS, family other, the decoder: a decoded word is the word its instruction encodes to, and the rows of the opcode
table are the instructions' words (spec/30_encoding.md R71 to R75, D8). -/

namespace Sys2Proof.Machine

/-! ### A word is made of its fields -/

theorem formatNNN_fields (op : Word) : formatNNN (topOf op) (nnnOf op) = op := by
  have := op.isLt
  apply BitVec.eq_of_toNat_eq
  rw [formatNNN_toNat, topOf_toNat, nnnOf_toNat]
  omega

theorem formatXNN_fields (op : Word) : formatXNN (topOf op) (xOf op) (nnOf op) = op := by
  have := op.isLt
  apply BitVec.eq_of_toNat_eq
  rw [formatXNN_toNat, topOf_toNat, xOf_toNat, nnOf_toNat]
  omega

theorem formatXYN_fields (op : Word) : formatXYN (topOf op) (xOf op) (yOf op) (nOf op) = op := by
  have := op.isLt
  apply BitVec.eq_of_toNat_eq
  rw [formatXYN_toNat, topOf_toNat, xOf_toNat, yOf_toNat, nOf_toNat]
  omega

/-- Format X is format XNN with the function code in the place of the immediate. -/
theorem formatX_fields (op : Word) : formatX (topOf op) (xOf op) (nnOf op) = op := formatXNN_fields op

/-! ### What the decoder answers, by the top nibble -/

theorem nibble_cases (n : BitVec 4) : n = 0x0#4 ∨ n = 0x1#4 ∨ n = 0x2#4 ∨ n = 0x3#4 ∨ n = 0x4#4 ∨ n = 0x5#4 ∨
    n = 0x6#4 ∨ n = 0x7#4 ∨ n = 0x8#4 ∨ n = 0x9#4 ∨ n = 0xA#4 ∨ n = 0xB#4 ∨ n = 0xC#4 ∨ n = 0xD#4 ∨ n = 0xE#4 ∨
    n = 0xF#4 := by decide +revert

/-- Everything the decoder can answer (R73, R75). -/
theorem decode_cases (op : Word) :
    (topOf op = 0x0#4 ∧ decode op = decodeGroup0 op) ∨
    (topOf op = 0x1#4 ∧ decode op = some (.op1NNN (nnnOf op))) ∨
    (topOf op = 0x2#4 ∧ decode op = some (.op2NNN (nnnOf op))) ∨
    (topOf op = 0x3#4 ∧ decode op = some (.op3XNN (xOf op) (nnOf op))) ∨
    (topOf op = 0x4#4 ∧ decode op = some (.op4XNN (xOf op) (nnOf op))) ∨
    (topOf op = 0x5#4 ∧ decode op = if nOf op = 0x0#4 then some (.op5XY0 (xOf op) (yOf op)) else none) ∨
    (topOf op = 0x6#4 ∧ decode op = some (.op6XNN (xOf op) (nnOf op))) ∨
    (topOf op = 0x7#4 ∧ decode op = some (.op7XNN (xOf op) (nnOf op))) ∨
    (topOf op = 0x8#4 ∧ decode op = decodeGroup8 (xOf op) (yOf op) (nOf op)) ∨
    (topOf op = 0x9#4 ∧ decode op = if nOf op = 0x0#4 then some (.op9XY0 (xOf op) (yOf op)) else none) ∨
    (topOf op = 0xA#4 ∧ decode op = some (.opANNN (nnnOf op))) ∨
    ((topOf op = 0xB#4 ∨ topOf op = 0xC#4) ∧ decode op = none) ∨
    (topOf op = 0xD#4 ∧ decode op = some (.opDXYN (xOf op) (yOf op) (nOf op))) ∨
    (topOf op = 0xE#4 ∧ decode op = decodeGroupE (xOf op) (nnOf op)) ∨
    (topOf op = 0xF#4 ∧ decode op = decodeGroupF (xOf op) (nnOf op)) := by
  obtain h | h | h | h | h | h | h | h | h | h | h | h | h | h | h | h := nibble_cases (topOf op) <;>
    simp [decode, h]

/-! ### A decoded word is its instruction's word (R73, D8) -/

theorem encode_of_decodeGroup0 {op : Word} {i : Instr} (h : decodeGroup0 op = some i) : encode i = op := by
  unfold decodeGroup0 at h
  split_ifs at h with h1 h2 <;> cases h
  · exact h1.symm
  · exact h2.symm

theorem encode_of_decodeGroup8 {x y : RegIx} {fn : BitVec 4} {i : Instr} (h : decodeGroup8 x y fn = some i) :
    encode i = formatXYN 0x8#4 x y fn := by
  unfold decodeGroup8 at h
  split_ifs at h with hfn hfn hfn hfn hfn hfn hfn hfn hfn <;> cases h <;> rw [hfn] <;> rfl

theorem encode_of_decodeGroupE {x : RegIx} {fn : Byte} {i : Instr} (h : decodeGroupE x fn = some i) :
    encode i = formatX 0xE#4 x fn := by
  unfold decodeGroupE at h
  split_ifs at h with hfn hfn <;> cases h <;> rw [hfn] <;> rfl

theorem encode_of_decodeGroupF {x : RegIx} {fn : Byte} {i : Instr} (h : decodeGroupF x fn = some i) :
    encode i = formatX 0xF#4 x fn := by
  unfold decodeGroupF at h
  split_ifs at h with hfn hfn hfn hfn hfn hfn hfn hfn hfn <;> cases h <;> rw [hfn] <;> rfl

/-- Settles O2: the top nibble picks the group; within it the word is the format of its fields, and the fixed fields are
those the decoder has tested. -/
theorem decodedWordEncodesToItself : Obligations.DecodedWordEncodesToItself := by
  intro op i h
  have hNNN := formatNNN_fields op
  have hXNN := formatXNN_fields op
  have hXYN := formatXYN_fields op
  have hX := formatX_fields op
  obtain ⟨htop, hd⟩ | ⟨htop, hd⟩ | ⟨htop, hd⟩ | ⟨htop, hd⟩ | ⟨htop, hd⟩ | ⟨htop, hd⟩ | ⟨htop, hd⟩ | ⟨htop, hd⟩ |
    ⟨htop, hd⟩ | ⟨htop, hd⟩ | ⟨htop, hd⟩ | ⟨htop, hd⟩ | ⟨htop, hd⟩ | ⟨htop, hd⟩ | ⟨htop, hd⟩ := decode_cases op <;>
    rw [hd] at h
  · exact encode_of_decodeGroup0 h
  · cases h; rwa [htop] at hNNN
  · cases h; rwa [htop] at hNNN
  · cases h; rwa [htop] at hXNN
  · cases h; rwa [htop] at hXNN
  · obtain ⟨hn, h⟩ := Option.ite_none_right_eq_some.mp h
    cases h; rwa [htop, hn] at hXYN
  · cases h; rwa [htop] at hXNN
  · cases h; rwa [htop] at hXNN
  · rw [encode_of_decodeGroup8 h, ← htop, hXYN]
  · obtain ⟨hn, h⟩ := Option.ite_none_right_eq_some.mp h
    cases h; rwa [htop, hn] at hXYN
  · cases h; rwa [htop] at hNNN
  · cases h
  · cases h; rwa [htop] at hXYN
  · rw [encode_of_decodeGroupE h, ← htop, hX]
  · rw [encode_of_decodeGroupF h, ← htop, hX]

/-! ### A word that matches a row is the word of an instruction of that row (R74) -/

section
open Sys2Proof.Laws.WordOfRow

theorem formatNNN_of_mask {op : Word} {top : BitVec 4} (h : op &&& 0xF000#16 = formatNNN top 0#12) :
    formatNNN top (nnnOf op) = op := by
  have htop : topOf op = top := by
    rw [← formatNNN_fields op, formatNNN_mask] at h
    simpa using congrArg topOf h
  rw [← htop, formatNNN_fields]

theorem formatXNN_of_mask {op : Word} {top : BitVec 4} (h : op &&& 0xF000#16 = formatXNN top 0#4 0#8) :
    formatXNN top (xOf op) (nnOf op) = op := by
  have htop : topOf op = top := by
    rw [← formatXNN_fields op, formatXNN_mask] at h
    simpa using congrArg topOf h
  rw [← htop, formatXNN_fields]

/-- DXYN fixes the top nibble only. -/
theorem formatXYN_of_topMask {op : Word} {top : BitVec 4} (h : op &&& 0xF000#16 = formatXYN top 0#4 0#4 0#4) :
    formatXYN top (xOf op) (yOf op) (nOf op) = op := by
  have htop : topOf op = top := by
    rw [← formatXYN_fields op, formatXYN_mask_top] at h
    simpa using congrArg topOf h
  rw [← htop, formatXYN_fields]

theorem formatXYN_of_mask {op : Word} {top fn : BitVec 4} (h : op &&& 0xF00F#16 = formatXYN top 0#4 0#4 fn) :
    formatXYN top (xOf op) (yOf op) fn = op := by
  rw [← formatXYN_fields op, formatXYN_mask] at h
  have htop : topOf op = top := by simpa using congrArg topOf h
  have hfn : nOf op = fn := by simpa using congrArg nOf h
  rw [← htop, ← hfn, formatXYN_fields]

theorem formatX_of_mask {op : Word} {top : BitVec 4} {fn : Byte} (h : op &&& 0xF0FF#16 = formatX top 0#4 fn) :
    formatX top (xOf op) fn = op := by
  rw [← formatX_fields op, formatX_mask] at h
  have htop : topOf op = top := by simpa using congrArg topOf h
  have hfn : nnOf op = fn := by simpa using congrArg nnOf h
  rw [← htop, ← hfn, formatX_fields]

theorem eq_of_fullMask {op w : Word} (h : op &&& 0xFFFF#16 = w) : w = op := h.symm.trans BitVec.and_allOnes

/-- Row by row, by the row's format. -/
theorem exists_encode_of_row {op : Word} {row : OpcodeRow} (hrow : row ∈ opcodeTable)
    (h : op &&& row.mask = row.pattern) : ∃ i : Instr, i.mnemonic = row.mnemonic ∧ encode i = op := by
  revert row
  simp only [opcodeTable, List.cons_append, List.nil_append, List.forall_mem_cons]
  exact ⟨fun h => ⟨.op00E0, rfl, eq_of_fullMask h⟩,
    fun h => ⟨.op00EE, rfl, eq_of_fullMask h⟩,
    fun h => ⟨.op1NNN _, rfl, formatNNN_of_mask h⟩,
    fun h => ⟨.op2NNN _, rfl, formatNNN_of_mask h⟩,
    fun h => ⟨.op3XNN _ _, rfl, formatXNN_of_mask h⟩,
    fun h => ⟨.op4XNN _ _, rfl, formatXNN_of_mask h⟩,
    fun h => ⟨.op5XY0 _ _, rfl, formatXYN_of_mask h⟩,
    fun h => ⟨.op6XNN _ _, rfl, formatXNN_of_mask h⟩,
    fun h => ⟨.op7XNN _ _, rfl, formatXNN_of_mask h⟩,
    fun h => ⟨.op8XY0 _ _, rfl, formatXYN_of_mask h⟩,
    fun h => ⟨.op8XY1 _ _, rfl, formatXYN_of_mask h⟩,
    fun h => ⟨.op8XY2 _ _, rfl, formatXYN_of_mask h⟩,
    fun h => ⟨.op8XY3 _ _, rfl, formatXYN_of_mask h⟩,
    fun h => ⟨.op8XY4 _ _, rfl, formatXYN_of_mask h⟩,
    fun h => ⟨.op8XY5 _ _, rfl, formatXYN_of_mask h⟩,
    fun h => ⟨.op8XY6 _ _, rfl, formatXYN_of_mask h⟩,
    fun h => ⟨.op8XY7 _ _, rfl, formatXYN_of_mask h⟩,
    fun h => ⟨.op8XYE _ _, rfl, formatXYN_of_mask h⟩,
    fun h => ⟨.op9XY0 _ _, rfl, formatXYN_of_mask h⟩,
    fun h => ⟨.opANNN _, rfl, formatNNN_of_mask h⟩,
    fun h => ⟨.opDXYN _ _ _, rfl, formatXYN_of_topMask h⟩,
    fun h => ⟨.opEX9E _, rfl, formatX_of_mask h⟩,
    fun h => ⟨.opEXA1 _, rfl, formatX_of_mask h⟩,
    fun h => ⟨.opFX07 _, rfl, formatX_of_mask h⟩,
    fun h => ⟨.opFX0A _, rfl, formatX_of_mask h⟩,
    fun h => ⟨.opFX15 _, rfl, formatX_of_mask h⟩,
    fun h => ⟨.opFX18 _, rfl, formatX_of_mask h⟩,
    fun h => ⟨.opFX1E _, rfl, formatX_of_mask h⟩,
    fun h => ⟨.opFX29 _, rfl, formatX_of_mask h⟩,
    fun h => ⟨.opFX33 _, rfl, formatX_of_mask h⟩,
    fun h => ⟨.opFX55 _, rfl, formatX_of_mask h⟩,
    fun h => ⟨.opFX65 _, rfl, formatX_of_mask h⟩,
    fun _ hnil => absurd hnil List.not_mem_nil⟩

/-- The family of Laws/PerInstr.lean, for every instruction. -/
theorem encode_matchesRow : ∀ i : Instr, Statement i
  | .op00E0 => op00E0
  | .op00EE => op00EE
  | .op1NNN nnn => op1NNN nnn
  | .op2NNN nnn => op2NNN nnn
  | .op3XNN x nn => op3XNN x nn
  | .op4XNN x nn => op4XNN x nn
  | .op5XY0 x y => op5XY0 x y
  | .op6XNN x nn => op6XNN x nn
  | .op7XNN x nn => op7XNN x nn
  | .op8XY0 x y => op8XY0 x y
  | .op8XY1 x y => op8XY1 x y
  | .op8XY2 x y => op8XY2 x y
  | .op8XY3 x y => op8XY3 x y
  | .op8XY4 x y => op8XY4 x y
  | .op8XY5 x y => op8XY5 x y
  | .op8XY6 x y => op8XY6 x y
  | .op8XY7 x y => op8XY7 x y
  | .op8XYE x y => op8XYE x y
  | .op9XY0 x y => op9XY0 x y
  | .opANNN nnn => opANNN nnn
  | .opDXYN x y n => opDXYN x y n
  | .opEX9E x => opEX9E x
  | .opEXA1 x => opEXA1 x
  | .opFX07 x => opFX07 x
  | .opFX0A x => opFX0A x
  | .opFX15 x => opFX15 x
  | .opFX18 x => opFX18 x
  | .opFX1E x => opFX1E x
  | .opFX29 x => opFX29 x
  | .opFX33 x => opFX33 x
  | .opFX55 x => opFX55 x
  | .opFX65 x => opFX65 x

end

/-- A decoded word matches the row its instruction names. -/
theorem row_of_decode {op : Word} {i : Instr} (h : decode op = some i) :
    ∃ row ∈ opcodeTable, row.mnemonic = i.mnemonic ∧ op &&& row.mask = row.pattern := by
  obtain ⟨row, hrow, hname, hword⟩ := encode_matchesRow i
  rw [decodedWordEncodesToItself op i h] at hword
  exact ⟨row, hrow, hname, hword⟩

/-- A word that matches a row decodes to an instruction of that row. -/
theorem decode_of_row {op : Word} {row : OpcodeRow} (hrow : row ∈ opcodeTable) (h : op &&& row.mask = row.pattern) :
    ∃ i, decode op = some i ∧ i.mnemonic = row.mnemonic := by
  obtain ⟨i, hname, rfl⟩ := exists_encode_of_row hrow h
  exact ⟨i, decode_encode i, hname⟩

/-- No two rows of the table have the same mnemonic. -/
theorem opcodeTable_mnemonics_nodup : (opcodeTable.map OpcodeRow.mnemonic).Nodup := by decide

/-- Settles O3: rows are exclusive since a word decodes to one instruction, whose mnemonic names one row. -/
theorem wordDecodesExactlyByTheRowItMatches : Obligations.WordDecodesExactlyByTheRowItMatches := by
  refine ⟨fun _ _ => row_of_decode, fun _ _ => decode_of_row, fun op hnone => ?_, fun op r₁ hr₁ r₂ hr₂ h₁ h₂ => ?_⟩
  · refine Option.eq_none_iff_forall_ne_some.mpr fun i hi => ?_
    obtain ⟨row, hrow, -, hword⟩ := row_of_decode hi
    exact hnone row hrow hword
  · obtain ⟨i, hi, hname₁⟩ := decode_of_row hr₁ h₁
    obtain ⟨j, hj, hname₂⟩ := decode_of_row hr₂ h₂
    obtain rfl : i = j := Option.some.inj (hi.symm.trans hj)
    exact List.inj_on_of_nodup_map opcodeTable_mnemonics_nodup hr₁ hr₂ (hname₁.symm.trans hname₂)

/-- Settles O5: each is the word of its instruction. -/
theorem wordsWrittenFromTheTableDecode : Obligations.WordsWrittenFromTheTableDecode :=
  ⟨decode_encode .op00EE, decode_encode (.op2NNN 0x300#12), decode_encode (.op8XY6 0x1#4 0x2#4),
    decode_encode (.opANNN 0x2F0#12), decode_encode (.opDXYN 0x1#4 0x2#4 0x5#4), decode_encode (.opEXA1 0x4#4),
    decode_encode (.opFX55 0x3#4)⟩

end Sys2Proof.Machine
end

section
/-! PROOFS, family other, the cycle and the step: which words are illegal, what the fetch reads, what a cycle does with
the word, and that every step answers a next state (spec/20_memory.md R52; spec/30_encoding.md R75, D8, D21;
spec/40_control_flow.md R100; spec/70_reset_and_hazards.md R242). -/

namespace Sys2Proof.Machine

/-! ### The illegal words of each group (R75) -/

theorem decodeGroup0_eq_none_iff (op : Word) : decodeGroup0 op = none ↔ op.toNat ≠ 0x00E0 ∧ op.toNat ≠ 0x00EE := by
  simp [decodeGroup0, ite_eq_iff, ← BitVec.toNat_inj]

theorem decodeGroup8_eq_none_iff (x y : RegIx) (fn : BitVec 4) :
    decodeGroup8 x y fn = none ↔ fn.toNat ∈ [8, 9, 0xA, 0xB, 0xC, 0xD, 0xF] := by
  obtain h | h | h | h | h | h | h | h | h | h | h | h | h | h | h | h := nibble_cases fn <;>
    simp [decodeGroup8, h]

theorem decodeGroupE_eq_none_iff (x : RegIx) (fn : Byte) :
    decodeGroupE x fn = none ↔ fn.toNat ∉ [0x9E, 0xA1] := by
  simp [decodeGroupE, ite_eq_iff, ← BitVec.toNat_inj]

theorem decodeGroupF_eq_none_iff (x : RegIx) (fn : Byte) :
    decodeGroupF x fn = none ↔ fn.toNat ∉ [0x07, 0x0A, 0x15, 0x18, 0x1E, 0x29, 0x33, 0x55, 0x65] := by
  simp [decodeGroupF, ite_eq_iff, ← BitVec.toNat_inj]

theorem toNat_div_of_topOf {op : Word} {top : BitVec 4} (h : topOf op = top) : op.toNat / 0x1000 = top.toNat := by
  have := op.isLt
  rw [← h, topOf_toNat]
  omega

/-- The words that decode to no instruction, as numbers, group by group. -/
theorem decode_eq_none_iff (op : Word) : decode op = none ↔
    (op.toNat < 0x1000 ∧ op.toNat ≠ 0x00E0 ∧ op.toNat ≠ 0x00EE) ∨
    (op.toNat / 0x1000 = 5 ∧ op.toNat % 16 ≠ 0) ∨
    (op.toNat / 0x1000 = 8 ∧ op.toNat % 16 ∈ [8, 9, 0xA, 0xB, 0xC, 0xD, 0xF]) ∨
    (op.toNat / 0x1000 = 9 ∧ op.toNat % 16 ≠ 0) ∨
    op.toNat / 0x1000 = 0xB ∨
    op.toNat / 0x1000 = 0xC ∨
    (op.toNat / 0x1000 = 0xE ∧ op.toNat % 256 ∉ [0x9E, 0xA1]) ∨
    (op.toNat / 0x1000 = 0xF ∧ op.toNat % 256 ∉ [0x07, 0x0A, 0x15, 0x18, 0x1E, 0x29, 0x33, 0x55, 0x65]) := by
  have hlt : op.toNat < 0x1000 ↔ op.toNat / 0x1000 = 0 := by omega
  have hn : nOf op = 0x0#4 ↔ op.toNat % 16 = 0 := by rw [← BitVec.toNat_inj, nOf_toNat]; rfl
  rw [hlt]
  obtain ⟨htop, hd⟩ | ⟨htop, hd⟩ | ⟨htop, hd⟩ | ⟨htop, hd⟩ | ⟨htop, hd⟩ | ⟨htop, hd⟩ | ⟨htop, hd⟩ | ⟨htop, hd⟩ |
    ⟨htop, hd⟩ | ⟨htop, hd⟩ | ⟨htop, hd⟩ | ⟨htop | htop, hd⟩ | ⟨htop, hd⟩ | ⟨htop, hd⟩ | ⟨htop, hd⟩ :=
    decode_cases op <;> rw [hd, toNat_div_of_topOf htop]
  case inl => simp [decodeGroup0_eq_none_iff]
  all_goals
    simp [decodeGroup8_eq_none_iff, decodeGroupE_eq_none_iff, decodeGroupF_eq_none_iff, nOf_toNat, nnOf_toNat, hn]

/-! ### What a running machine's cycle does with what it fetches (R100) -/

theorem cycle_of_no_fetch {s : State} (hrun : s.running) (hfetch : s.fetchWord = none) :
    cycle s = .next (s.raise .fetch s.pc) := by
  simp [cycle, show s.halted = false from hrun, hfetch]

theorem cycle_of_illegal {s : State} {op : Word} (hrun : s.running) (hfetch : s.fetchWord = some op)
    (hdecode : decode op = none) : cycle s = .next (s.raise .decodeError op) := by
  simp [cycle, show s.halted = false from hrun, hfetch, hdecode]

theorem cycle_of_decode {s : State} {op : Word} {i : Instr} (hrun : s.running) (hfetch : s.fetchWord = some op)
    (hdecode : decode op = some i) : cycle s = exec i s := by
  simp [cycle, show s.halted = false from hrun, hfetch, hdecode]

/-- Settles O4: the list, group by group (`decode_eq_none_iff`), and what a cycle does with such a word. -/
theorem illegalWordsAreThoseListedAndHalt : Obligations.IllegalWordsAreThoseListedAndHalt :=
  ⟨decode_eq_none_iff, fun _ _ => cycle_of_illegal⟩

/-- Settles O7: the word is the high byte times 256 and the low byte; with no word the cycle raises Fetch. -/
theorem fetchIsBigEndianAndHaltsPastTheEnd : Obligations.FetchIsBigEndianAndHaltsPastTheEnd :=
  ⟨fun _ h => ⟨_, State.fetchWord_of_inside h, opcodeOf_toNat _ _⟩,
    fun s hrun h => cycle_of_no_fetch hrun (s.fetchWord_eq_none_iff.mpr h)⟩

/-- Settles O30: the word is that of the jump to `a`, and PC is `a` already. -/
theorem selfJumpIsARestState : Obligations.SelfJumpIsARestState := by
  rintro s a ⟨hrun, hpc, hfetch⟩
  rw [cycle_of_decode hrun hfetch (decode_encode _)]
  change Host.Outcome.next (s.setPc (absAddress a)) = _
  rw [← hpc]
  rfl

/-! ### The step -/

/-- Schedule and driver alone determine the event a step runs and what is left of them. -/
theorem step_runs_event (future : List Event) (driver : Driver) :
    ∃ e es d, ∀ s : State, s.schedule = future → s.driver = driver → step s = runEvent e (s.under es d) := by
  cases future with
  | cons e es => exact ⟨e, es, driver, fun s hs hd => by rw [step, stepUnder_of_schedule _ hs, hd]⟩
  | nil =>
    cases driver with
    | alone => exact ⟨.cycle, [], .alone, fun s hs hd => by rw [step, stepUnder_of_alone _ hs hd, ← hs, ← hd]; rfl⟩
    | repeats e es =>
      exact ⟨e, es, .repeats e es, fun s hs hd => by rw [step, stepUnder_of_repeats _ hs hd, hd]⟩
    | free k =>
      exact ⟨Config.freeEvent k, [], .free (k + 1), fun s hs hd => by rw [step, stepUnder_of_free _ hs hd]⟩

/-- A step is an atomic step, and each of these answers a next state. -/
theorem step_answers_next (s : State) : ∃ t, step s = .next t :=
  runEvent_answers_next _ (s.nextEvent Config.freeEvent).2

/-- Settles O10: by the case split of `exec_answers_next`, and for a step by that of the event it runs. -/
theorem everyStepAnswersANextState : Obligations.EveryStepAnswersANextState := ⟨exec_answers_next, step_answers_next⟩

/-- A cycle decodes the same instruction under any schedule and driver. -/
theorem runEvent_cycle_under {s : State} {op : Word} {i : Instr} (hrun : s.running) (hfetch : s.fetchWord = some op)
    (hdecode : decode op = some i) (es : List Event) (d : Driver) :
    runEvent .cycle (s.under es d) = exec i (s.under es d) :=
  cycle_of_decode (s := s.under es d) hrun hfetch hdecode

/-- Settles O6: the step is the event that schedule or driver has next; where that is a cycle the instruction runs. -/
theorem stepRunsTheDecodedInstruction : Obligations.StepRunsTheDecodedInstruction := by
  intro s i hrun hin hdecode
  have hcycle := runEvent_cycle_under hrun (State.fetchWord_of_inside hin) hdecode
  refine ⟨fun hs hd => ?_, fun es hs => ?_, fun es hs hd => ?_, fun k hs hd => ?_⟩
  · rw [step, stepUnder_of_alone _ hs hd]
    exact cycle_of_decode hrun (State.fetchWord_of_inside hin) hdecode
  · rw [step, stepUnder_of_schedule _ hs]
    exact hcycle es s.driver
  · rw [step, stepUnder_of_repeats _ hs hd]
    exact hcycle es s.driver
  · have hunder : s.under [] (.free (k + 1)) = { s with driver := .free (k + 1) } := by rw [← hs]; rfl
    rw [step, stepUnder_of_free _ hs hd, ← hunder]
    split
    · next hev => rw [hev]; exact hcycle [] (.free (k + 1))
    · rfl

end Sys2Proof.Machine
end

section
/-! PROOFS, family other, instruction by instruction: the stack and its two users, the flag-writing ALU instructions,
the index instructions, the draw, the key skips, and the loads and stores through I (spec/10_state.md R25;
spec/40_control_flow.md R102, R104; spec/41_load_alu.md R128 to R135; spec/42_display.md R152, R154;
spec/43_keypad_timers.md R172, R173; spec/44_memory_ops.md R191 to R193). -/

namespace Sys2Proof.Machine

/-! ### The stack (R25) -/

theorem State.pop_of_succ {s : State} {k : Nat} (hk : k < Config.stackDepth) (h : s.sp.val = k + 1) :
    s.pop = some (s.stk[k], { s with sp := ⟨k, Nat.lt_succ_of_lt hk⟩ }) := by
  cases hpop : s.pop with
  | none => have := s.pop_eq_none_iff.mp hpop; omega
  | some p =>
    obtain ⟨j, _, hj, ha, ht⟩ := State.pop_eq_some hpop
    obtain rfl : j = k := by omega
    rw [← ha, ← ht]

theorem State.pop_of_empty {s : State} (h : s.sp.val = 0) : s.pop = none := s.pop_eq_none_iff.mpr h

theorem State.push_of_full {s : State} (a : Word) (h : s.sp.val = Config.stackDepth) : s.push a = none :=
  (s.push_eq_none_iff a).mpr h

/-- Every entry below SP is one of the 16, or the stack is full. -/
theorem State.room_or_full (s : State) : s.sp.val < Config.stackDepth ∨ s.sp.val = Config.stackDepth :=
  Nat.lt_or_eq_of_le (Nat.le_of_lt_succ s.sp.isLt)

/-- What a successful `Push` gives: room before it, the address on top, the depth one more, nothing else changed. -/
theorem State.push_eq_some {s t : State} {a : Word} (h : s.push a = some t) :
    ∃ hroom : s.sp.val < Config.stackDepth,
      t = { s with stk := s.stk.set s.sp.val a hroom, sp := ⟨s.sp.val + 1, Nat.succ_lt_succ hroom⟩ } := by
  obtain hroom | hfull := s.room_or_full
  · rw [State.push_of_room a hroom] at h
    exact ⟨hroom, (Option.some.inj h).symm⟩
  · rw [State.push_of_full a hfull] at h
    cases h

/-- The next `Pop` takes the address pushed and gives the depth before the push. -/
theorem State.pop_push {s : State} {a : Word} (h : s.sp.val < Config.stackDepth) :
    State.pop { s with stk := s.stk.set s.sp.val a h, sp := ⟨s.sp.val + 1, Nat.succ_lt_succ h⟩ } =
      some (a, { s with stk := s.stk.set s.sp.val a h }) := by
  rw [State.pop_of_succ h rfl, Vector.getElem_set_self]

/-- Pushes succeed as long as there is room for all of them, and each raises the depth by one. -/
theorem State.pushes_of_room {as : List Word} {s : State} (h : s.sp.val + as.length ≤ Config.stackDepth) :
    ∃ t, as.foldlM State.push s = some t ∧ t.sp.val = s.sp.val + as.length := by
  induction as generalizing s with
  | nil => exact ⟨s, rfl, rfl⟩
  | cons a as ih =>
    rw [List.length_cons] at h
    have hroom : s.sp.val < Config.stackDepth := by omega
    obtain ⟨t, ht, hsp⟩ := ih (s := { s with
      stk := s.stk.set s.sp.val a hroom, sp := ⟨s.sp.val + 1, Nat.succ_lt_succ hroom⟩ }) (by simp only; omega)
    refine ⟨t, ?_, by rw [hsp, List.length_cons]; simp only; omega⟩
    rw [List.foldlM_cons, State.push_of_room a hroom]
    exact ht

/-- Settles O34: `pop_push`, sixteen pushes by induction on their list, and the two ends of the depth. -/
theorem stackIsLastInFirstOutSixteenDeep : Obligations.StackIsLastInFirstOutSixteenDeep := by
  refine ⟨fun s t a h => ?_, fun s as hempty hlen => ?_, fun s a => State.push_of_full a, fun s => State.pop_of_empty⟩
  · obtain ⟨hroom, rfl⟩ := State.push_eq_some h
    exact ⟨rfl, _, State.pop_push hroom, rfl⟩
  · obtain ⟨t, ht, hsp⟩ := State.pushes_of_room (show s.sp.val + as.length ≤ 16 by omega)
    exact ⟨t, ht, fun a => State.push_of_full a (show t.sp.val = 16 by omega)⟩

/-! ### Call and return (R102, R104) -/

theorem exec_op2NNN_of_room (nnn : Addr12) {s : State} (h : s.sp.val < Config.stackDepth) :
    exec (.op2NNN nnn) s = .next (State.setPc { s with
      stk := s.stk.set s.sp.val s.pc h, sp := ⟨s.sp.val + 1, Nat.succ_lt_succ h⟩ } (absAddress nnn)) := by
  simp only [exec, exec2NNN, State.push_of_room s.pc h]

theorem exec_op2NNN_of_full (nnn : Addr12) {s : State} (h : s.sp.val = Config.stackDepth) :
    exec (.op2NNN nnn) s = .next (s.raise .stackOverflow s.pc) := by
  simp only [exec, exec2NNN, State.push_of_full s.pc h]

theorem exec_op00EE_of_succ {s : State} {k : Nat} (hk : k < Config.stackDepth) (h : s.sp.val = k + 1) :
    exec .op00EE s = .next (State.setPc { s with sp := ⟨k, Nat.lt_succ_of_lt hk⟩ } (s.stk[k] + 2#16)) := by
  simp only [exec, exec00EE, State.pop_of_succ hk h]

theorem exec_op00EE_of_empty {s : State} (h : s.sp.val = 0) :
    exec .op00EE s = .next (s.raise .stackUnderflow s.pc) := by
  simp only [exec, exec00EE, State.pop_of_empty h]

theorem onlyStack_setPc (s : State) (stk : StackFile) (sp : Fin (Config.stackDepth + 1)) (w : Word) :
    OnlyStack s (State.setPc { s with stk := stk, sp := sp } w) :=
  ⟨fun _ _ => rfl, rfl, fun _ => rfl, ⟨rfl, rfl⟩, ⟨rfl, rfl⟩, ⟨rfl, rfl, rfl⟩, ⟨rfl, rfl, rfl, rfl⟩⟩

/-- Settles O32: with room one push of PC and one write of PC, on a full stack the fault. -/
theorem callPushesItsOwnAddressAndJumps : Obligations.CallPushesItsOwnAddressAndJumps := by
  refine ⟨fun nnn s h => ⟨_, exec_op2NNN_of_room nnn h, absAddress_toNat nnn, rfl, ?_, fun k hk hne => ?_,
    onlyStack_setPc s _ _ _⟩, fun nnn s h => exec_op2NNN_of_full nnn h⟩
  · exact Vector.getElem_set_self h
  · exact Vector.getElem_set_ne h hk hne.symm

/-- Settles O33: with an entry one pop and one write of PC, on an empty stack the fault. -/
theorem returnPopsAndAddsTwo : Obligations.ReturnPopsAndAddsTwo :=
  ⟨fun s _ hk h => ⟨_, exec_op00EE_of_succ hk h, rfl, rfl, rfl, onlyStack_setPc s _ _ _⟩,
    fun _ h => exec_op00EE_of_empty h⟩

/-- Settles O35: the entry the return pops is the one the call pushed, PC of the call. -/
theorem returnResumesAfterTheCall : Obligations.ReturnResumesAfterTheCall := by
  refine fun nnn s h => ⟨_, exec_op2NNN_of_room nnn h, fun u hstack => ?_⟩
  obtain ⟨hsp, hstk⟩ := hstack
  have hsucc : u.sp.val = s.sp.val + 1 := congrArg Fin.val hsp
  refine ⟨_, exec_op00EE_of_succ h hsucc, ?_, rfl⟩
  rw [State.setPc_pc]
  simp [hstk]

/-! ### The flag-writing ALU instructions (R121, R128 to R132) -/

theorem onlyRegs_resultThenFlag (s : State) (x : RegIx) (b : Byte) (c : Bool) :
    OnlyRegs [x, regF] s (s.resultThenFlag x b c) :=
  (((OnlyRegs.refl _ s).setReg (List.mem_cons_self ..) b).setReg
    (List.mem_cons_of_mem x (List.mem_singleton_self regF)) _).advance

theorem onlyRegs_flagThenResult (s : State) (x : RegIx) (b : Byte) (c : Bool) :
    OnlyRegs [x, regF] s (s.flagThenResult x b c) :=
  (((OnlyRegs.refl _ s).setReg (List.mem_cons_of_mem x (List.mem_singleton_self regF)) _).setReg
    (List.mem_cons_self ..) b).advance

/-- Result first, flag second: the flag stands, and the result too unless X = 0xF (D5). -/
theorem exec_writesResultThenFlag {i : Instr} {s : State} {x : RegIx} {b : Byte} {c : Bool} {v : Nat} {p : Prop}
    [Decidable p] (h : exec i s = .next (s.resultThenFlag x b c)) (hb : b.toNat = v) (hc : c = true ↔ p) :
    ∃ t, exec i s = .next t ∧ (x ≠ regF → (t.reg x).toNat = v) ∧ (t.reg regF).toNat = (if p then 1 else 0) ∧
      t.pc = s.pc + 2#16 ∧ OnlyRegs [x, regF] s t := by
  refine ⟨_, h, fun hx => ?_, ?_, rfl, onlyRegs_resultThenFlag s x b c⟩
  · rw [State.resultThenFlag, State.reg_advance, State.reg_setFlag, if_neg hx.symm, State.reg_setReg_same, hb]
  · rw [State.resultThenFlag, State.reg_advance, State.reg_setFlag_same, apply_ite BitVec.toNat]
    exact if_congr hc rfl rfl

/-- Flag first, result second: the result stands, and the flag too unless X = 0xF (D5). -/
theorem exec_writesFlagThenResult {i : Instr} {s : State} {x : RegIx} {b : Byte} {c : Bool} {v f : Nat}
    (h : exec i s = .next (s.flagThenResult x b c)) (hb : b.toNat = v) (hc : c.toNat = f) :
    ∃ t, exec i s = .next t ∧ (t.reg x).toNat = v ∧ (x ≠ regF → (t.reg regF).toNat = f) ∧
      t.pc = s.pc + 2#16 ∧ OnlyRegs [x, regF] s t := by
  refine ⟨_, h, ?_, fun hx => ?_, rfl, onlyRegs_flagThenResult s x b c⟩
  · rw [State.flagThenResult, State.reg_advance, State.reg_setReg_same, hb]
  · rw [State.flagThenResult, State.reg_advance, State.reg_setReg_ne _ hx, State.reg_setFlag_same, ← hc]
    cases c <;> rfl

theorem carryOut_iff (a b : Byte) : carryOut a b = true ↔ 255 < a.toNat + b.toNat := decide_eq_true_iff

theorem borrowOut_iff (a b : Byte) : borrowOut a b = true ↔ a.toNat < b.toNat := decide_eq_true_iff

/-- Byte subtraction, as a remainder of a difference that is not negative. -/
theorem byteSub_toNat (a b : Byte) : (a - b).toNat = (a.toNat + 256 - b.toNat) % 256 := by
  rw [BitVec.toNat_sub]
  have := b.isLt
  omega

theorem byteShiftRight_toNat (b : Byte) : (b >>> 1).toNat = b.toNat / 2 := by
  rw [BitVec.toNat_ushiftRight, Nat.shiftRight_one]

theorem byteShiftLeft_toNat (b : Byte) : (b <<< 1).toNat = b.toNat * 2 % 256 := by
  rw [BitVec.toNat_shiftLeft, Nat.shiftLeft_eq, pow_one]

theorem shrFlag_toNat (b : Byte) : (shrFlag b).toNat = b.toNat % 2 := by
  rw [shrFlag, BitVec.getLsbD, Nat.toNat_testBit, pow_zero, Nat.div_one]

/-- Under `SHL_FLAG` = `msb_of_vx` the flag is bit 7 (D7). -/
theorem shlFlag_toNat (b : Byte) : (shlFlagOf shlFlag b).toNat = b.toNat / 128 := by
  have hbit : shlFlagOf shlFlag b = b.toNat.testBit 7 := rfl
  have := b.isLt
  rw [hbit, Nat.toNat_testBit]
  omega

/-- Settles O40: result first, flag second, the flag being the carry. -/
theorem addSetsVfToTheCarry : Obligations.AddSetsVfToTheCarry :=
  fun x y _ => exec_writesResultThenFlag (i := .op8XY4 x y) rfl (BitVec.toNat_add _ _) (carryOut_iff _ _)

/-- Settles O41: result first, flag second, the flag being the borrow of the same subtraction. -/
theorem subtractionsSetVfToTheBorrow : Obligations.SubtractionsSetVfToTheBorrow :=
  ⟨fun x y _ => exec_writesResultThenFlag (i := .op8XY5 x y) rfl (byteSub_toNat _ _) (borrowOut_iff _ _),
    fun x y _ => exec_writesResultThenFlag (i := .op8XY7 x y) rfl (byteSub_toNat _ _) (borrowOut_iff _ _)⟩

/-- Settles O42: flag first, result second, the flag being bit 0 or bit 7 of the old VX. -/
theorem shiftsTakeTheFlagFromVxAndTheValueFromVy : Obligations.ShiftsTakeTheFlagFromVxAndTheValueFromVy :=
  ⟨fun x y _ => exec_writesFlagThenResult (i := .op8XY6 x y) rfl (byteShiftRight_toNat _) (shrFlag_toNat _),
    fun x y _ => exec_writesFlagThenResult (i := .op8XYE x y) rfl (byteShiftLeft_toNat _) (shlFlag_toNat _)⟩

/-! ### The index instructions (R133 to R135) -/

/-- An instruction that loads `w` into I and goes on changes nothing else but PC. -/
theorem exec_writesOnlyI {i : Instr} {s : State} {w : Word} {v : Nat} (h : exec i s = .next (s.setI w).advance)
    (hw : w.toNat = v) : ∃ t, exec i s = .next t ∧ t.i.toNat = v ∧ t.pc = s.pc + 2#16 ∧ OnlyIndex s t :=
  ⟨_, h, hw, rfl, fun _ _ => rfl, fun _ => rfl, ⟨rfl, rfl⟩, ⟨rfl, rfl⟩, ⟨rfl, rfl⟩, ⟨rfl, rfl, rfl⟩,
    ⟨rfl, rfl, rfl, rfl⟩⟩

theorem zext16_toNat (b : Byte) : (zext16 b).toNat = b.toNat := BitVec.toNat_setWidth_of_le (by decide)

theorem glyphAddress_toNat (b : Byte) : (glyphAddress b).toNat = 0x050 + 5 * b.toNat := by
  have := b.isLt
  rw [glyphAddress, BitVec.toNat_ofNat, fontBase, glyphHeight]
  omega

/-- Settles O43: each is one write of I, of the number its address has. -/
theorem indexInstructionsWriteOnlyI : Obligations.IndexInstructionsWriteOnlyI := by
  refine ⟨fun nnn s => exec_writesOnlyI rfl (absAddress_toNat nnn), fun x s => exec_writesOnlyI rfl ?_,
    fun x s => exec_writesOnlyI rfl (glyphAddress_toNat _)⟩
  rw [BitVec.toNat_add, zext16_toNat]

/-! ### The draw (R152, R154) -/

/-- R154 where a sprite byte lies outside memory (D16). -/
theorem exec_opDXYN_of_outside {x y : RegIx} {n : Height} {s : State} (h : 4096 < s.dataAddress + n.toNat) :
    exec (.opDXYN x y n) s = .next (s.raise .memory s.i) := by
  have hout : outOfMemory s.dataAddress n.toNat = true := (outOfMemory_iff ..).mpr h
  simp [exec, execDXYN, hout]

theorem onlyDisplay_draw (s : State) (fb : Framebuffer) (c : Bool) :
    OnlyDisplay [regF] s ((s.setDisplay fb).setFlag c).advance := by
  refine ⟨fun r hr => ?_, rfl, fun _ => rfl, ⟨rfl, rfl⟩, ⟨rfl, rfl⟩, ⟨rfl, rfl, rfl⟩, ⟨rfl, rfl, rfl, rfl⟩⟩
  rw [State.reg_advance, State.reg_setFlag, if_neg fun heq : regF = r => hr (heq ▸ List.mem_singleton_self regF),
    State.reg_setDisplay]

/-- A draw changes a pixel iff the sprite covers it. -/
theorem State.drawn_pixel_ne_iff {s : State} {x y : RegIx} {n : Height} {py : Fin Config.dispH}
    {px : Fin Config.dispW} :
    (s.drawn x y n).1.pixel py px ≠ s.fb.pixel py px ↔ spriteCovers s x y n py px := by
  by_cases h : spriteCovers s x y n py px
  · simp [State.drawn_pixel_of_covered h, h]
  · simp [State.drawn_pixel_of_not_covered h, h]

/-- Settles O45: VF is the collision flag, and the flag says whether a covered pixel was on. -/
theorem drawFlipsTheCoveredPixelsOrHalts : Obligations.DrawFlipsTheCoveredPixelsOrHalts := by
  refine ⟨fun x y n s hin => ⟨_, exec_opDXYN_of_inside hin, fun _ _ => State.drawn_pixel_ne_iff, fun hcoll => ?_,
    fun hnone => ?_, rfl, rfl, onlyDisplay_draw s _ _⟩, fun x y n s hout => exec_opDXYN_of_outside hout⟩
  · rw [State.reg_advance, State.reg_setFlag_same, if_pos (State.drawn_collision_iff.mpr hcoll)]
  · rw [State.reg_advance, State.reg_setFlag_same, if_neg (mt State.drawn_collision_iff.mp hnone)]

/-- Settles O47: each pixel is XORed twice with the same sprite bit. -/
theorem drawingTwiceRestoresTheScreen : Obligations.DrawingTwiceRestoresTheScreen := by
  intro fb vx vy rows hlen
  have hfit : rows.length ≤ Config.dispH := hlen.trans (by decide)
  refine Framebuffer.ext_pixel fun y x => ?_
  rw [drawSprite_pixel _ _ _ hfit, drawSprite_pixel _ _ _ hfit, Bool.xor_assoc, Bool.xor_self, Bool.xor_false]

/-! ### The key skips (R172, R173) -/

theorem State.keySkip_of_key {s : State} {x : RegIx} (skipWhenDown : Bool) (h : (s.reg x).toNat ≤ 15) :
    s.keySkip x skipWhenDown = s.skipIf (s.keyDown (s.reg x).toNat == skipWhenDown) := by
  simp only [State.keySkip, if_neg (Nat.not_lt.mpr h)]

theorem State.keySkip_of_no_key {s : State} {x : RegIx} (skipWhenDown : Bool) (h : 15 < (s.reg x).toNat) :
    s.keySkip x skipWhenDown = s.raise .keyIndex (zext16 (s.reg x)) := by
  simp only [State.keySkip, if_pos h]

theorem exec_opEX9E (x : RegIx) (s : State) : exec (.opEX9E x) s = .next (s.keySkip x true) := rfl

theorem exec_opEXA1 (x : RegIx) (s : State) : exec (.opEXA1 x) s = .next (s.keySkip x false) := rfl

/-- Settles O48: with a key of that index each is one skip on its level, else the fault. -/
theorem keySkipsTestTheKeyOfVx : Obligations.KeySkipsTestTheKeyOfVx := by
  refine ⟨fun x s h => ?_, fun x s h => ?_, fun x s h => ⟨zext16 (s.reg x), zext16_toNat _, ?_, ?_⟩⟩
  · rw [exec_opEX9E, State.keySkip_of_key true h]
    exact ⟨_, rfl, s.skipIf_pc_of_iff beq_iff_eq, onlyRegs_skipIf s _⟩
  · rw [exec_opEXA1, State.keySkip_of_key false h]
    exact ⟨_, rfl, s.skipIf_pc_of_iff beq_iff_eq, onlyRegs_skipIf s _⟩
  · rw [exec_opEX9E, State.keySkip_of_no_key true h]; rfl
  · rw [exec_opEXA1, State.keySkip_of_no_key false h]; rfl

/-! ### Loads and stores through I (R191 to R193) -/

/-- The first address outside memory of an access that reaches one (R200, C6). -/
theorem State.firstBadAddress_toNat (s : State) : s.firstBadAddress.toNat = max s.dataAddress 4096 := by
  rw [State.firstBadAddress, apply_ite BitVec.toNat, State.dataAddress, max_comm, max_def]
  rfl

theorem exec_opFX33_of_inside {x : RegIx} {s : State} (h : s.dataAddress ≤ 4093) :
    exec (.opFX33 x) s = .next (s.setMem (s.mem.storeBytes s.dataAddress (decimalDigits (s.reg x)))).advance := by
  have hin : outOfMemory s.dataAddress 3 = false := (outOfMemory_eq_false_iff ..).mpr (Nat.add_le_add_right h 3)
  simp [exec, execFX33, hin]

theorem exec_opFX33_of_outside {x : RegIx} {s : State} (h : 4093 < s.dataAddress) :
    exec (.opFX33 x) s = .next ((s.havocBytes 3).raise .memory s.firstBadAddress) := by
  have hout : outOfMemory s.dataAddress 3 = true := (outOfMemory_iff ..).mpr (Nat.add_lt_add_right h 3)
  simp [exec, execFX33, hout]

theorem exec_opFX55_of_outside {x : RegIx} {s : State} (h : 4095 < s.dataAddress + x.toNat) :
    exec (.opFX55 x) s =
      .next ((s.havocBytes (x.toNat + 1)).havocI.raise .memory s.firstBadAddress) := by
  have hout : outOfMemory s.dataAddress (x.toNat + 1) = true := (outOfMemory_iff ..).mpr (Nat.succ_lt_succ h)
  simp [exec, execFX55, hout]

theorem exec_opFX65_of_inside {x : RegIx} {s : State} (h : s.dataAddress + x.toNat ≤ 4095) :
    exec (.opFX65 x) s = .next ((s.setRegs (s.mem.loadBytes s.dataAddress (x.toNat + 1))).setI
      (s.i + BitVec.ofNat 16 (x.toNat + 1))).advance := by
  have hin : outOfMemory s.dataAddress (x.toNat + 1) = false :=
    (outOfMemory_eq_false_iff ..).mpr (Nat.succ_le_succ h)
  simp [exec, execFX65, hin]

theorem exec_opFX65_of_outside {x : RegIx} {s : State} (h : 4095 < s.dataAddress + x.toNat) :
    exec (.opFX65 x) s = .next ((s.havocRegs x).havocI.raise .memory s.firstBadAddress) := by
  have hout : outOfMemory s.dataAddress (x.toNat + 1) = true := (outOfMemory_iff ..).mpr (Nat.succ_lt_succ h)
  simp [exec, execFX65, hout]

/-- I past a block inside memory does not wrap. -/
theorem State.i_add_block_toNat {s : State} {x : RegIx} (h : s.dataAddress + x.toNat ≤ 4095) :
    (s.i + BitVec.ofNat 16 (x.toNat + 1)).toNat = s.dataAddress + x.toNat + 1 := by
  rw [State.dataAddress] at h ⊢
  rw [BitVec.toNat_add, BitVec.toNat_ofNat]
  omega

theorem decimalDigits_toNat (b : Byte) :
    (decimalDigits b).map BitVec.toNat = [b.toNat / 100, b.toNat / 10 % 10, b.toNat % 10] := by
  have := b.isLt
  simp only [decimalDigits, u8, List.map_cons, List.map_nil, BitVec.toNat_ofNat, List.cons.injEq, and_true]
  omega

/-- Byte `k` of a stored block stands at offset `k`. -/
theorem Memory.load_storeBytes_at (m : Memory) (a : Nat) {bs : List Byte} {k : Nat} (hk : k < bs.length) :
    (m.storeBytes a bs).load (a + k) = bs[k] := by
  rw [Memory.load_storeBytes, if_pos (Nat.le_add_right a k), Nat.add_sub_cancel_left, List.getElem?_eq_getElem hk,
    Option.getD_some]

/-- Storing a block and going on changes nothing but its bytes, I and PC. -/
theorem onlyBytesAndIndex_store (s : State) (a : Nat) (bs : List Byte) (w : Word) :
    OnlyBytesAndIndex a bs.length s ((s.setMem (s.mem.storeBytes a bs)).setI w).advance :=
  ⟨fun _ _ => rfl, fun _ hb => Memory.load_storeBytes_outside hb, ⟨rfl, rfl⟩, ⟨rfl, rfl⟩, ⟨rfl, rfl⟩, ⟨rfl, rfl, rfl⟩,
    ⟨rfl, rfl, rfl, rfl⟩⟩

/-- Settles O53: inside memory the three digits stand at their offsets, else the fault with those unspecified. -/
theorem bcdStoresThreeDigitsOrHalts : Obligations.BcdStoresThreeDigitsOrHalts := by
  refine ⟨fun x s hin => ?_, fun x s hout => ?_⟩
  · have hdigits := decimalDigits_toNat (s.reg x)
    simp only [decimalDigits, List.map_cons, List.map_nil, List.cons.injEq, and_true] at hdigits
    obtain ⟨hhundreds, htens, hunits⟩ := hdigits
    have hload := fun k hk => Memory.load_storeBytes_at s.mem s.dataAddress (bs := decimalDigits (s.reg x)) (k := k) hk
    refine ⟨_, exec_opFX33_of_inside hin, ?_, ?_, ?_, rfl, rfl,
      onlyBytesAndIndex_store s s.dataAddress (decimalDigits (s.reg x)) s.i⟩
    · exact (congrArg BitVec.toNat (hload 0 (show 0 < 3 by decide))).trans hhundreds
    · exact (congrArg BitVec.toNat (hload 1 (show 1 < 3 by decide))).trans htens
    · exact (congrArg BitVec.toNat (hload 2 (show 2 < 3 by decide))).trans hunits
  · exact ⟨_, exec_opFX33_of_outside hout, rfl, rfl, s.firstBadAddress_toNat, rfl, rfl, fun _ _ => rfl,
      fun _ ha => State.load_havocBytes_outside ha, ⟨rfl, rfl⟩, ⟨rfl, rfl⟩, ⟨rfl, rfl⟩, rfl, rfl, rfl⟩

/-- Settles O54: inside memory V0 to VX stand at their offsets, else the fault with those and I unspecified. -/
theorem storeCopiesV0ToVxAndAdvancesIOrHalts : Obligations.StoreCopiesV0ToVxAndAdvancesIOrHalts := by
  refine ⟨fun x s hin => ⟨_, exec_opFX55_of_inside hin, fun r hr => s.load_storeBytes_regsUpTo s.mem s.dataAddress hr,
    State.i_add_block_toNat hin, rfl, ?_⟩, fun x s hout => ?_⟩
  · rw [← s.regsUpTo_length x]
    exact onlyBytesAndIndex_store s s.dataAddress (s.regsUpTo x) _
  · exact ⟨_, exec_opFX55_of_outside hout, rfl, rfl, s.firstBadAddress_toNat, rfl, fun _ _ => rfl,
      fun _ ha => State.load_havocBytes_outside ha, ⟨rfl, rfl⟩, ⟨rfl, rfl⟩, ⟨rfl, rfl⟩, rfl, rfl, rfl⟩

/-- Register `r` of the block loaded at `a` is the byte at offset `r`; a register above VX is as before. -/
theorem State.reg_setRegs_loadBytes (s : State) (m : Memory) (a : Nat) (x r : RegIx) :
    (s.setRegs (m.loadBytes a (x.toNat + 1))).reg r = if r.toNat ≤ x.toNat then m.load (a + r.toNat) else s.reg r := by
  rw [State.reg_setRegs, Memory.loadBytes_getElem?, apply_ite (Option.getD · (s.reg r))]
  exact if_congr Nat.lt_succ_iff rfl rfl

/-- Settles O55: inside memory V0 to VX take the bytes at their offsets, else the fault with those and I unspecified. -/
theorem loadFillsV0ToVxAndAdvancesIOrHalts : Obligations.LoadFillsV0ToVxAndAdvancesIOrHalts := by
  refine ⟨fun x s hin => ⟨_, exec_opFX65_of_inside hin, fun r hr => ?_, State.i_add_block_toNat hin, rfl,
    fun r hr => ?_, fun _ => rfl, ⟨rfl, rfl⟩, ⟨rfl, rfl⟩, ⟨rfl, rfl⟩, ⟨rfl, rfl, rfl⟩, ⟨rfl, rfl, rfl, rfl⟩⟩, fun x s hout => ?_⟩
  · rw [State.reg_advance, State.reg_setI, State.reg_setRegs_loadBytes, if_pos hr]
  · rw [State.reg_advance, State.reg_setI, State.reg_setRegs_loadBytes, if_neg (Nat.not_le.mpr hr)]
  · exact ⟨_, exec_opFX65_of_outside hout, rfl, rfl, s.firstBadAddress_toNat, rfl,
      fun _ hr => s.reg_havocRegs_above hr, fun _ => rfl, ⟨rfl, rfl⟩, ⟨rfl, rfl⟩, ⟨rfl, rfl⟩, rfl, rfl, rfl⟩

/-- Settles O56: the load reads from the old I upward what the store put there. -/
theorem loadUndoesStore : Obligations.LoadUndoesStore := by
  refine fun x s hin => ⟨_, exec_opFX55_of_inside hin, fun u hmem hi => ?_⟩
  have haddr : u.dataAddress = s.dataAddress := congrArg BitVec.toNat hi
  refine ⟨_, exec_opFX65_of_inside (by rwa [haddr]), ?_, fun r hr => ?_⟩
  · simp only [State.advance_i, State.setI_i, hi]
  · rw [State.reg_advance, State.reg_setI, State.reg_setRegs_loadBytes, if_pos hr, haddr, hmem]
    exact s.load_storeBytes_regsUpTo s.mem s.dataAddress hr

end Sys2Proof.Machine
end

section
/-! PROOFS, family other, what an instruction can do to the latch, the memory, the stack and the registers: one inversion
of `exec` for each of these, and the invariant and the rules about faults from them (spec/10_state.md R20, R30, R32;
spec/20_memory.md R50; spec/60_exceptions.md R201 to R204). -/

namespace Sys2Proof.Machine

/-! ### Return, call, key skip and key wait: everything they can answer -/

theorem exec_op00EE_cases (s : State) :
    (exec .op00EE s = .next (s.raise .stackUnderflow s.pc)) ∨
    ∃ k, ∃ hk : k < Config.stackDepth, s.sp.val = k + 1 ∧
      exec .op00EE s = .next (State.setPc { s with sp := ⟨k, Nat.lt_succ_of_lt hk⟩ } (s.stk[k] + 2#16)) := by
  have hlt := s.sp.isLt
  cases h : s.sp.val with
  | zero => exact .inl (exec_op00EE_of_empty h)
  | succ k =>
    have hk : k < Config.stackDepth := by omega
    exact .inr ⟨k, hk, rfl, exec_op00EE_of_succ hk h⟩

theorem exec_op2NNN_cases (nnn : Addr12) (s : State) :
    (exec (.op2NNN nnn) s = .next (s.raise .stackOverflow s.pc)) ∨
    ∃ h : s.sp.val < Config.stackDepth, exec (.op2NNN nnn) s = .next (State.setPc { s with
      stk := s.stk.set s.sp.val s.pc h, sp := ⟨s.sp.val + 1, Nat.succ_lt_succ h⟩ } (absAddress nnn)) := by
  obtain h | h := s.room_or_full
  · exact .inr ⟨h, exec_op2NNN_of_room nnn h⟩
  · exact .inl (exec_op2NNN_of_full nnn h)

theorem State.keySkip_cases (s : State) (x : RegIx) (skipWhenDown : Bool) :
    s.keySkip x skipWhenDown = s.raise .keyIndex (zext16 (s.reg x)) ∨
      ∃ taken, s.keySkip x skipWhenDown = s.skipIf taken := by
  obtain h | h := Nat.lt_or_ge 15 (s.reg x).toNat
  · exact .inl (State.keySkip_of_no_key skipWhenDown h)
  · exact .inr ⟨_, State.keySkip_of_key skipWhenDown h⟩

theorem exec_opFX0A_cases (x : RegIx) (s : State) :
    exec (.opFX0A x) s = .next s ∨ ∃ k, exec (.opFX0A x) s = .next (s.setReg x (u8 k)).advance := by
  cases h : s.lowestKeyDown with
  | none => exact .inl (exec_opFX0A_of_no_key x (s.lowestKeyDown_eq_none_iff.mp h))
  | some k => exact .inr ⟨k, exec_opFX0A_of_key x h⟩

/-! ### The instructions that test an address -/

/-- What holds on either side of the test holds of the state answered. -/
theorem of_guarded (p : State → Prop) {outside : Prop} [Decidable outside] {a b t : State}
    (h : (if outside then .next a else .next b : Result) = .next t) (ha : p a) (hb : ¬ outside → p b) : p t := by
  split at h <;> cases h
  · exact ha
  · exact hb ‹_›

theorem not_outOfMemory_iff (a n : Nat) : ¬ outOfMemory a n = true ↔ a + n ≤ Config.memSize := by
  rw [outOfMemory_iff, Nat.not_lt]

/-! ### The latch: an instruction completes or takes its own fault (R201, R203) -/

/-- The state a fault of the instruction is taken in: `s` but for the write sets R203 leaves unspecified. -/
def State.atFault (s : State) : Instr → State
  | .opFX33 _ => s.havocBytes 3
  | .opFX55 x => (s.havocBytes (x.toNat + 1)).havocI
  | .opFX65 x => (s.havocRegs x).havocI
  | _ => s

/-- `t` is `s` after the fault of its own that the instruction has. -/
def TakesOwnFault (i : Instr) (s t : State) : Prop :=
  ownFault i ≠ .none ∧ ∃ info, t = (s.atFault i).raise (ownFault i) info

theorem exec_completes_or_faults {i : Instr} {s t : State} (h : exec i s = .next t) :
    SameLatch s t ∨ TakesOwnFault i s t := by
  cases i
  case op00EE =>
    obtain he | ⟨k, hk, -, he⟩ := exec_op00EE_cases s <;> cases he.symm.trans h
    · exact .inr ⟨nofun, _, rfl⟩
    · exact .inl ⟨rfl, rfl, rfl⟩
  case op2NNN nnn =>
    obtain he | ⟨_, he⟩ := exec_op2NNN_cases nnn s <;> cases he.symm.trans h
    · exact .inr ⟨nofun, _, rfl⟩
    · exact .inl ⟨rfl, rfl, rfl⟩
  case opDXYN x y n | opFX33 x | opFX55 x | opFX65 x =>
    exact of_guarded (fun t => SameLatch s t ∨ TakesOwnFault _ s t) h (.inr ⟨nofun, _, rfl⟩) fun _ =>
      .inl ⟨rfl, rfl, rfl⟩
  case opEX9E x | opEXA1 x =>
    cases h
    obtain he | ⟨taken, he⟩ := s.keySkip_cases x _ <;> rw [he]
    · exact .inr ⟨nofun, _, rfl⟩
    · exact .inl ⟨rfl, rfl, rfl⟩
  case opFX0A x =>
    obtain he | ⟨_, he⟩ := exec_opFX0A_cases x s <;> cases he.symm.trans h <;> exact .inl ⟨rfl, rfl, rfl⟩
  all_goals cases h; exact .inl ⟨rfl, rfl, rfl⟩

/-- An instruction that halts a running machine has taken its own fault. -/
theorem takesOwnFault_of_halted {i : Instr} {s t : State} (hrun : s.running) (h : exec i s = .next t)
    (hhalted : t.halted = true) : TakesOwnFault i s t := by
  refine (exec_completes_or_faults h).resolve_left fun hsame => ?_
  obtain ⟨hlatch, -, -⟩ := hsame
  exact absurd (hlatch.symm.trans hhalted) (Bool.eq_false_iff.mp hrun)

theorem cause_of_takesOwnFault {i : Instr} {s t : State} (h : TakesOwnFault i s t) :
    t.cause = ownFault i ∧ ownFault i ≠ .none := by
  obtain ⟨hne, info, rfl⟩ := h
  exact ⟨rfl, hne⟩

/-- Everything by which a running machine's cycle halts it: a fault of the fetch, of the decoder, of the instruction. -/
theorem cycle_halts_cases {s t : State} (hrun : s.running) (h : cycle s = .next t) (hhalted : t.halted = true) :
    (s.fetchWord = none ∧ t = s.raise .fetch s.pc) ∨
    (∃ op, s.fetchWord = some op ∧ decode op = none ∧ t = s.raise .decodeError op) ∨
    (∃ op i, s.fetchWord = some op ∧ decode op = some i ∧ TakesOwnFault i s t) := by
  obtain ⟨hs, -⟩ | ⟨-, hf, hc⟩ | ⟨op, -, hf, hd, hc⟩ | ⟨op, i, -, hf, hd, hc⟩ := cycle_cases s
  · exact absurd hs (Bool.eq_false_iff.mp hrun)
  · exact .inl ⟨hf, Host.Outcome.next.inj (h.symm.trans hc)⟩
  · exact .inr (.inl ⟨op, hf, hd, Host.Outcome.next.inj (h.symm.trans hc)⟩)
  · exact .inr (.inr ⟨op, i, hf, hd, takesOwnFault_of_halted hrun (hc.symm.trans h) hhalted⟩)

/-- No host step touches the latch. -/
theorem sameLatch_of_hostStep {e : Event} {s t : State} (he : e ≠ .cycle) (h : runEvent e s = .next t) :
    SameLatch s t := by
  cases e with
  | cycle => exact absurd rfl he
  | tick => cases h; exact ⟨rfl, rfl, rfl⟩
  | keyWrite k => cases h; exact ⟨rfl, rfl, rfl⟩
  | frameRead => cases h; exact ⟨rfl, rfl, rfl⟩

/-- Settles O11: a fault of the fetch, of the decoder, or the own fault of an instruction that did not complete. -/
theorem eachInstructionRaisesOnlyItsOwnFault : Obligations.EachInstructionRaisesOnlyItsOwnFault := by
  refine ⟨fun i s t hrun h hhalted => cause_of_takesOwnFault (takesOwnFault_of_halted hrun h hhalted),
    fun s t hrun h hhalted => ?_, fun _ _ _ => sameLatch_of_hostStep⟩
  obtain ⟨hf, rfl⟩ | ⟨op, hf, hd, rfl⟩ | ⟨op, i, hf, hd, hfault⟩ := cycle_halts_cases hrun h hhalted
  · exact .inl ⟨hf, rfl⟩
  · exact .inr (.inl ⟨op, hf, hd, rfl⟩)
  · exact .inr (.inr ⟨op, i, hf, hd, cause_of_takesOwnFault hfault⟩)

/-- What no fault changes: PC, stack, display, timers, keys and the steps to come. -/
theorem atFault_keeps (i : Instr) (s : State) :
    (s.atFault i).pc = s.pc ∧ SameStack s (s.atFault i) ∧ SameDisplay s (s.atFault i) ∧ SameTimers s (s.atFault i) ∧
      (s.atFault i).keys = s.keys ∧ (s.atFault i).schedule = s.schedule ∧ (s.atFault i).driver = s.driver := by
  cases i <;> exact ⟨rfl, ⟨rfl, rfl⟩, ⟨rfl, rfl⟩, ⟨rfl, rfl⟩, rfl, rfl, rfl⟩

/-- A fault leaves the state as it was, or is one of the three whose write set R203 leaves unspecified. -/
theorem atFault_cases (i : Instr) (s : State) :
    s.atFault i = s ∨
    (∃ x, i = .opFX33 x ∧ SameRegs [] s (s.atFault i) ∧ (s.atFault i).i = s.i ∧
      SameMemoryOutside s.dataAddress 3 s (s.atFault i)) ∨
    (∃ x, i = .opFX55 x ∧ SameRegs [] s (s.atFault i) ∧
      SameMemoryOutside s.dataAddress (x.toNat + 1) s (s.atFault i)) ∨
    (∃ x, i = .opFX65 x ∧ (∀ r : RegIx, x.toNat < r.toNat → (s.atFault i).reg r = s.reg r) ∧
      SameMemory s (s.atFault i)) := by
  cases i
  case opFX33 x => exact .inr (.inl ⟨x, rfl, fun _ _ => rfl, rfl, fun _ ha => State.load_havocBytes_outside ha⟩)
  case opFX55 x => exact .inr (.inr (.inl ⟨x, rfl, fun _ _ => rfl, fun _ ha => State.load_havocBytes_outside ha⟩))
  case opFX65 x => exact .inr (.inr (.inr ⟨x, rfl, fun _ hr => s.reg_havocRegs_above hr, fun _ => rfl⟩))
  all_goals exact .inl rfl

/-- Settles O12: a fault of the fetch or the decoder is taken in `s` itself, one of an instruction in its `atFault`. -/
theorem faultKeepsPcAndAllOutsideTheWriteSet : Obligations.FaultKeepsPcAndAllOutsideTheWriteSet := by
  intro s t hrun h hhalted
  obtain ⟨-, rfl⟩ | ⟨op, -, -, rfl⟩ | ⟨op, i, hf, hd, hne, info, rfl⟩ := cycle_halts_cases hrun h hhalted
  · exact ⟨nofun, rfl, ⟨rfl, rfl⟩, ⟨rfl, rfl⟩, ⟨rfl, rfl⟩, rfl, rfl, rfl, .inl rfl⟩
  · exact ⟨nofun, rfl, ⟨rfl, rfl⟩, ⟨rfl, rfl⟩, ⟨rfl, rfl⟩, rfl, rfl, rfl, .inl rfl⟩
  · obtain ⟨hpc, hstack, hdisplay, htimers, hkeys, hschedule, hdriver⟩ := atFault_keeps i s
    refine ⟨hne, hpc, hstack, hdisplay, htimers, hkeys, hschedule, hdriver, ?_⟩
    obtain heq | ⟨x, rfl, hframe⟩ | ⟨x, rfl, hframe⟩ | ⟨x, rfl, hframe⟩ := atFault_cases i s
    · rw [heq]; exact .inl rfl
    · exact .inr ⟨op, hf, .inl ⟨x, hd, hframe⟩⟩
    · exact .inr ⟨op, hf, .inr (.inl ⟨x, hd, hframe⟩)⟩
    · exact .inr ⟨op, hf, .inr (.inr ⟨x, hd, hframe⟩)⟩

/-! ### Memory: an instruction stores a block through I, or none (R50) -/

/-- How many bytes an instruction can store at I. -/
def storeSize : Instr → Nat
  | .opFX33 _ => 3
  | .opFX55 x => x.toNat + 1
  | _ => 0

/-- `t` has the memory of `s`, or that memory with at most `n` bytes stored at I, all of them inside [0, 4096). -/
def StoresAtMost (n : Nat) (s t : State) : Prop :=
  t.mem = s.mem ∨ ∃ bs : List Byte, bs.length ≤ n ∧ s.dataAddress + bs.length ≤ Config.memSize ∧
    t.mem = s.mem.storeBytes s.dataAddress bs

theorem storesAtMost_havocBytes (n : Nat) (s : State) : StoresAtMost n s (s.havocBytes n) := by
  have hlen : (s.freeBytes (min n (Config.memSize - s.i.toNat))).length = min n (Config.memSize - s.i.toNat) := by
    simp [State.freeBytes]
  by_cases hi : s.i.toNat ≤ Config.memSize
  · refine .inr ⟨_, hlen.trans_le (Nat.min_le_left ..), ?_, rfl⟩
    rw [hlen, State.dataAddress]
    omega
  · refine .inl ?_
    rw [show min n (Config.memSize - s.i.toNat) = 0 by omega, List.length_eq_zero_iff] at hlen
    rw [State.havocBytes, show min n (Config.memSize - s.i.toNat) = 0 by omega, hlen]
    rfl

theorem exec_storesAtMost {i : Instr} {s t : State} (h : exec i s = .next t) : StoresAtMost (storeSize i) s t := by
  cases i
  case op00EE => obtain he | ⟨_, _, -, he⟩ := exec_op00EE_cases s <;> cases he.symm.trans h <;> exact .inl rfl
  case op2NNN nnn => obtain he | ⟨_, he⟩ := exec_op2NNN_cases nnn s <;> cases he.symm.trans h <;> exact .inl rfl
  case opDXYN x y n | opFX65 x => exact of_guarded (StoresAtMost 0 s) h (.inl rfl) fun _ => .inl rfl
  case opEX9E x | opEXA1 x =>
    cases h
    obtain he | ⟨_, he⟩ := s.keySkip_cases x _ <;> rw [he] <;> exact .inl rfl
  case opFX0A x => obtain he | ⟨_, he⟩ := exec_opFX0A_cases x s <;> cases he.symm.trans h <;> exact .inl rfl
  case opFX33 x =>
    exact of_guarded (StoresAtMost 3 s) h (storesAtMost_havocBytes 3 s) fun hin =>
      .inr ⟨decimalDigits (s.reg x), Nat.le_refl 3, (not_outOfMemory_iff ..).mp hin, rfl⟩
  case opFX55 x =>
    exact of_guarded (StoresAtMost (x.toNat + 1) s) h (storesAtMost_havocBytes (x.toNat + 1) s) fun hin =>
      .inr ⟨s.regsUpTo x, (s.regsUpTo_length x).le,
        by rw [s.regsUpTo_length]; exact (not_outOfMemory_iff ..).mp hin, rfl⟩
  all_goals cases h; exact .inl rfl

/-- Storing inside memory keeps the canonical form. -/
theorem StoresAtMost.wf {n : Nat} {s t : State} (h : StoresAtMost n s t) (hwf : s.mem.wf = true) : t.mem.wf = true := by
  obtain h | ⟨bs, -, hin, h⟩ := h <;> rw [h]
  · exact hwf
  · exact Memory.storeBytes_wf hwf hin

/-- A byte that changed is one of those at I, and exists. -/
theorem StoresAtMost.changed {n : Nat} {s t : State} (h : StoresAtMost n s t) {a : Nat}
    (hne : t.mem.load a ≠ s.mem.load a) : a < 4096 ∧ s.dataAddress ≤ a ∧ a < s.dataAddress + n := by
  obtain h | ⟨bs, hlen, hin, h⟩ := h
  · exact absurd (congrArg (Memory.load · a) h) hne
  · have hblock : s.dataAddress ≤ a ∧ a < s.dataAddress + bs.length := by
      by_contra hout
      exact hne (by rw [h, Memory.load_storeBytes_outside (by omega)])
    simp only [Config.memSize] at hin
    omega

/-- Only FX33 and FX55 store bytes. -/
theorem storeSize_pos {i : Instr} (h : 0 < storeSize i) :
    (∃ x, i = .opFX33 x ∧ storeSize i = 3) ∨ (∃ x, i = .opFX55 x ∧ storeSize i = x.toNat + 1) := by
  cases i
  case opFX33 x => exact .inl ⟨x, rfl, rfl⟩
  case opFX55 x => exact .inr ⟨x, rfl, rfl⟩
  all_goals exact absurd h (Nat.lt_irrefl 0)

/-- Settles O21: a byte that changed lies in the block the instruction stored, and only two instructions store one. -/
theorem memoryChangesOnlyByItsTwoStores : Obligations.MemoryChangesOnlyByItsTwoStores := by
  intro i s t a h hne
  obtain ⟨ha, hlow, hhigh⟩ := (exec_storesAtMost h).changed hne
  refine ⟨ha, ?_⟩
  obtain ⟨x, hi, hsize⟩ | ⟨x, hi, hsize⟩ := storeSize_pos (i := i) (by omega) <;> rw [hsize] at hhigh
  · exact .inl ⟨x, hi, hlow, hhigh⟩
  · exact .inr ⟨x, hi, hlow, hhigh⟩

/-! ### The stack: a call pushes, a return pops, nothing else touches it (R24) -/

/-- The state with another stack. -/
def State.withStack (stk : StackFile) (sp : Fin (Config.stackDepth + 1)) (s : State) : State :=
  { s with stk := stk, sp := sp }

theorem State.withStack_own (s : State) : s.withStack s.stk s.sp = s := rfl

@[simp] theorem State.lowestKeyDown_withStack (stk : StackFile) (sp : Fin (Config.stackDepth + 1)) (s : State) :
    (s.withStack stk sp).lowestKeyDown = s.lowestKeyDown := rfl

/-- Two outcomes under one test agree when they agree on each side of it. -/
theorem map_ite_eq_map {α β : Type} (f g : α → β) {c : Prop} [Decidable c] {a b a' b' : α} (ha : f a = g a')
    (hb : f b = g b') : f (if c then a else b) = g (if c then a' else b') := by
  split
  · exact ha
  · exact hb

/-- Every instruction but return and call does the same over any stack, and keeps it. -/
theorem exec_withStack {i : Instr} (hret : i ≠ .op00EE) (hcall : ∀ nnn, i ≠ .op2NNN nnn) (stk : StackFile)
    (sp : Fin (Config.stackDepth + 1)) (s : State) :
    exec i (s.withStack stk sp) = onNext (State.withStack stk sp) (exec i s) := by
  cases i
  case op00EE => exact absurd rfl hret
  case op2NNN nnn => exact absurd rfl (hcall nnn)
  case opFX0A x => simp only [exec, execFX0A, State.lowestKeyDown_withStack]; cases s.lowestKeyDown <;> rfl
  case opEX9E x | opEXA1 x => exact congrArg Host.Outcome.next (map_ite_eq_map id (State.withStack stk sp) rfl rfl)
  case opDXYN x y n | opFX33 x | opFX55 x | opFX65 x =>
    exact map_ite_eq_map id (onNext (State.withStack stk sp)) rfl rfl
  all_goals rfl

theorem exec_sameStack {i : Instr} {s t : State} (h : exec i s = .next t) (hret : i ≠ .op00EE)
    (hcall : ∀ nnn, i ≠ .op2NNN nnn) : SameStack s t := by
  have hown := exec_withStack hret hcall s.stk s.sp s
  rw [State.withStack_own, h] at hown
  have ht : t = t.withStack s.stk s.sp := Host.Outcome.next.inj hown
  rw [ht]
  exact ⟨rfl, rfl⟩

/-- Every live entry satisfies `p`. -/
def LiveEntries (p : Word → Prop) (s : State) : Prop := ∀ k (_ : k < Config.stackDepth), k < s.sp.val → p s.stk[k]

theorem LiveEntries.of_sameStack {p : Word → Prop} {s t : State} (h : LiveEntries p s) (hstack : SameStack s t) :
    LiveEntries p t := by
  obtain ⟨hsp, hstk⟩ := hstack
  intro k hk hlive
  simp only [hstk]
  exact h k hk (by rwa [hsp] at hlive)

/-- What holds of every live entry and of PC still holds of every live entry after an instruction: the only entry that
can come to life is PC. -/
theorem exec_liveEntries {p : Word → Prop} {i : Instr} {s t : State} (h : exec i s = .next t) (hpc : p s.pc)
    (hlive : LiveEntries p s) : LiveEntries p t := by
  by_cases hret : i = .op00EE
  · subst hret
    obtain he | ⟨k, hk, hsp, he⟩ := exec_op00EE_cases s <;> cases he.symm.trans h
    · exact hlive
    · exact fun j hj hlt => hlive j hj (by rw [hsp]; exact Nat.lt_succ_of_lt hlt)
  by_cases hcall : ∃ nnn, i = .op2NNN nnn
  · obtain ⟨nnn, rfl⟩ := hcall
    obtain he | ⟨hroom, he⟩ := exec_op2NNN_cases nnn s <;> cases he.symm.trans h
    · exact hlive
    · intro j hj hlt
      simp only [State.setPc_stk, Vector.getElem_set]
      split
      · exact hpc
      · next hne => exact hlive j hj (Nat.lt_of_le_of_ne (Nat.le_of_lt_succ hlt) (Ne.symm hne))
  · exact hlive.of_sameStack (exec_sameStack h hret (not_exists.mp hcall))

/-! ### The registers: the write half of the table (R20) -/

theorem reg_of_not_mayWrite {i : Instr} {s t : State} {r : RegIx} (h : exec i s = .next t) (hr : mayWrite i r = false) :
    t.reg r = s.reg r := by
  cases i
  case op00EE => obtain he | ⟨_, _, -, he⟩ := exec_op00EE_cases s <;> cases he.symm.trans h <;> rfl
  case op2NNN nnn => obtain he | ⟨_, he⟩ := exec_op2NNN_cases nnn s <;> cases he.symm.trans h <;> rfl
  case op6XNN x _ | op7XNN x _ | op8XY0 x _ | op8XY1 x _ | op8XY2 x _ | op8XY3 x _ | opFX07 x =>
    cases h
    exact s.reg_setReg_ne (Ne.symm (beq_eq_false_iff_ne.mp hr)) _
  case opFX0A x =>
    obtain he | ⟨_, he⟩ := exec_opFX0A_cases x s <;> cases he.symm.trans h
    · rfl
    · exact s.reg_setReg_ne (Ne.symm (beq_eq_false_iff_ne.mp hr)) _
  case op8XY4 x _ | op8XY5 x _ | op8XY7 x _ =>
    cases h
    exact (onlyRegs_resultThenFlag s x _ _).1 r (by simpa [mayWrite] using hr)
  case op8XY6 x _ | op8XYE x _ =>
    cases h
    exact (onlyRegs_flagThenResult s x _ _).1 r (by simpa [mayWrite] using hr)
  case opDXYN x y n =>
    exact of_guarded (fun t => t.reg r = s.reg r) h rfl fun _ =>
      (onlyDisplay_draw s _ _).1 r (by simpa [mayWrite] using hr)
  case opEX9E x | opEXA1 x =>
    cases h
    obtain he | ⟨_, he⟩ := s.keySkip_cases x _ <;> rw [he] <;> rfl
  case opFX33 x | opFX55 x => exact of_guarded (fun t => t.reg r = s.reg r) h rfl fun _ => rfl
  case opFX65 x =>
    have habove : x.toNat < r.toNat := Nat.not_le.mp (of_decide_eq_false hr)
    exact of_guarded (fun t => t.reg r = s.reg r) h (s.reg_havocRegs_above habove) fun _ =>
      (s.reg_setRegs_loadBytes s.mem s.dataAddress x r).trans (if_neg (Nat.not_le.mpr habove))
  all_goals cases h; rfl

/-- Settles O20: by contraposition, a register the table does not list keeps its value. -/
theorem registersChangeOnlyWhereTheTableSays : Obligations.RegistersChangeOnlyWhereTheTableSays :=
  fun _ _ _ _ h hne => Bool.of_not_eq_false fun hr => hne (reg_of_not_mayWrite h hr)

/-! ### The invariant (R22, R30, R32) -/

/-- Two bytes, four bytes past an address an instruction can be fetched from: no wrap. -/
theorem pcTarget_le {i : Instr} {s t : State} (h : PcTarget i s t) (hpc : s.pc.toNat ≤ 0xFFE)
    (hstack : LiveEntries (fun a => a.toNat ≤ 0xFFE) s) : t.pc.toNat ≤ 0x1002 := by
  have hadd : ∀ a : Word, a.toNat ≤ 0xFFE → (a + 2#16).toNat ≤ 0x1002 ∧ (a + 4#16).toNat ≤ 0x1002 := by
    intro a ha
    simp only [BitVec.toNat_add, BitVec.toNat_ofNat]
    omega
  obtain h | ⟨-, h⟩ | ⟨nnn, -, h⟩ | ⟨-, k, hk, hsp, h⟩ | ⟨x, -, -, h⟩ := h <;> rw [h]
  · exact (hadd _ hpc).1
  · exact (hadd _ hpc).2
  · have := nnn.isLt; omega
  · exact (hadd _ (hstack k hk (by omega))).1
  · omega

/-- A fault taken from a state whose memory, PC and stack are in order leaves a latch whose parts agree. -/
theorem State.Inv.raise {s : State} (h : s.Inv) {c : Cause} (hc : c ≠ .none) (info : Word) : (s.raise c info).Inv where
  memory := h.memory
  pcBound := h.pcBound
  stackBound := h.stackBound
  latch := ⟨fun _ => hc, fun _ => rfl⟩
  noInfo := nofun

theorem exec_inv {i : Instr} {s t : State} (hinv : s.Inv) (hpc : s.pc.toNat ≤ 0xFFE)
    (h : exec i s = .next t) : t.Inv := by
  have hlive : LiveEntries (fun a => a.toNat ≤ 0xFFE) s := hinv.stackBound
  have hbound : t.pc.toNat ≤ 0x1002 := by
    obtain ⟨-, hkept⟩ | ⟨-, htarget⟩ := exec_faultedOrAtTarget h
    · rw [hkept]; exact hinv.pcBound
    · exact pcTarget_le htarget hpc hlive
  have hlatch : (t.halted = true ↔ t.cause ≠ .none) ∧ (t.halted = false → t.info = 0#16) := by
    obtain ⟨hh, hc, hi⟩ | ⟨hne, info, rfl⟩ := exec_completes_or_faults h
    · rw [hh, hc, hi]; exact ⟨hinv.latch, hinv.noInfo⟩
    · exact ⟨⟨fun _ => hne, fun _ => rfl⟩, nofun⟩
  exact ⟨(exec_storesAtMost h).wf hinv.memory, hbound, exec_liveEntries h hpc hlive, hlatch.1, hlatch.2⟩

theorem cycle_inv {s t : State} (hinv : s.Inv) (h : cycle s = .next t) : t.Inv := by
  obtain ⟨-, hc⟩ | ⟨-, -, hc⟩ | ⟨op, -, -, -, hc⟩ | ⟨op, i, -, hf, -, hc⟩ := cycle_cases s <;> rw [hc] at h
  · cases h; exact hinv
  · cases h; exact hinv.raise (c := .fetch) nofun _
  · cases h; exact hinv.raise (c := .decodeError) nofun _
  · have hpc : ¬ Config.memSize ≤ s.pc.toNat + 1 := by rw [← State.fetchWord_eq_none_iff, hf]; nofun
    exact exec_inv hinv (by simp only [Config.memSize] at hpc; omega) h

theorem runEvent_inv {e : Event} {s t : State} (hinv : s.Inv) (h : runEvent e s = .next t) : t.Inv := by
  cases e with
  | cycle => exact cycle_inv hinv h
  | tick => cases h; exact ⟨hinv.memory, hinv.pcBound, hinv.stackBound, hinv.latch, hinv.noInfo⟩
  | keyWrite k => cases h; exact ⟨hinv.memory, hinv.pcBound, hinv.stackBound, hinv.latch, hinv.noInfo⟩
  | frameRead => cases h; exact ⟨hinv.memory, hinv.pcBound, hinv.stackBound, hinv.latch, hinv.noInfo⟩

/-- The invariant says nothing of the steps to come. -/
theorem State.Inv.under {s : State} (h : s.Inv) (es : List Event) (d : Driver) : (s.under es d).Inv :=
  ⟨h.memory, h.pcBound, h.stackBound, h.latch, h.noInfo⟩

/-- Settles O17: each part of the invariant by its inversion of `exec` (`exec_inv`), then cycle, event and step. -/
theorem everyStepKeepsTheInvariant : Obligations.EveryStepKeepsTheInvariant := by
  intro s t hinv h
  obtain ⟨e, es, d, hstep⟩ := step_runs_event s.schedule s.driver
  exact runEvent_inv (hinv.under es d) ((hstep s rfl rfl).symm.trans h)

/-- Settles O18: memory holds no cell, the stack no live entry, the latch no fault. -/
theorem resetMeetsTheInvariant : Obligations.ResetMeetsTheInvariant where
  memory := Memory.wf_nil
  pcBound := by decide
  stackBound := fun k _ hlive => absurd hlive (Nat.not_lt_zero k)
  latch := ⟨nofun, fun h => absurd rfl h⟩
  noInfo := fun _ => rfl

end Sys2Proof.Machine
end

section
/-! PROOFS, family other, what never moves and what is never told apart: a halted machine, the state only the host reads,
the dead stack entries (spec/10_state.md R24, R26, R29, R30; spec/60_exceptions.md R204). -/

namespace Sys2Proof.Machine

/-! ### A halted machine stands still (R204) -/

/-- Latch, CPU state, stack, framebuffer and memory of `t` are those of `s`. -/
def StandsStill (s t : State) : Prop :=
  SameLatch s t ∧ t.v = s.v ∧ t.pc = s.pc ∧ t.i = s.i ∧ SameStack s t ∧ t.fb = s.fb ∧ t.mem = s.mem

theorem StandsStill.refl (s : State) : StandsStill s s := ⟨⟨rfl, rfl, rfl⟩, rfl, rfl, rfl, ⟨rfl, rfl⟩, rfl, rfl⟩

theorem StandsStill.trans {s t u : State} (h : StandsStill s t) (h' : StandsStill t u) : StandsStill s u := by
  obtain ⟨⟨hh, hc, hn⟩, hv, hpc, hi, ⟨hsp, hstk⟩, hfb, hmem⟩ := h
  obtain ⟨⟨hh', hc', hn'⟩, hv', hpc', hi', ⟨hsp', hstk'⟩, hfb', hmem'⟩ := h'
  exact ⟨⟨hh'.trans hh, hc'.trans hc, hn'.trans hn⟩, hv'.trans hv, hpc'.trans hpc, hi'.trans hi,
    ⟨hsp'.trans hsp, hstk'.trans hstk⟩, hfb'.trans hfb, hmem'.trans hmem⟩

theorem StandsStill.halted {s t : State} (h : StandsStill s t) (hs : s.halted = true) : t.halted = true := by
  obtain ⟨⟨hh, -, -⟩, -⟩ := h
  exact hh.trans hs

theorem cycle_of_halted {s : State} (h : s.halted = true) : cycle s = .next s := by
  rw [cycle, if_pos h]

/-- No event moves a halted machine: a cycle does nothing, the host steps write timers, keys and the dirty flag. -/
theorem runEvent_standsStill {e : Event} {s t : State} (hs : s.halted = true) (h : runEvent e s = .next t) :
    StandsStill s t := by
  cases e with
  | cycle => cases (cycle_of_halted hs).symm.trans h; exact StandsStill.refl s
  | tick => cases h; exact StandsStill.refl s
  | keyWrite k => cases h; exact StandsStill.refl s
  | frameRead => cases h; exact StandsStill.refl s

/-- The steps to come are no part of what stands still. -/
theorem step_standsStill {s : State} (hs : s.halted = true) : ∃ t, step s = .next t ∧ StandsStill s t := by
  obtain ⟨e, es, d, hstep⟩ := step_runs_event s.schedule s.driver
  obtain ⟨t, ht⟩ := runEvent_answers_next e (s.under es d)
  exact ⟨t, (hstep s rfl rfl).trans ht, runEvent_standsStill (s := s.under es d) hs ht⟩

/-- Settles O8, by induction on the number of steps. -/
theorem haltedMachineNeverMovesAgain : Obligations.HaltedMachineNeverMovesAgain := by
  intro n
  change ∀ s : State, s.halted = true → ∃ t : State, Sys2Proof.core.run n s = .next t ∧ StandsStill s t
  induction n with
  | zero => exact fun s _ => ⟨s, rfl, StandsStill.refl s⟩
  | succ n ih =>
    intro s hs
    obtain ⟨t, hstep, hst⟩ := step_standsStill hs
    obtain ⟨u, hrun, htu⟩ := ih t (hst.halted hs)
    exact ⟨u, (core_run_of_next hstep).trans hrun, hst.trans htu⟩

/-! ### The state only the host reads (R26, R29, R30) -/

/-- The state with ST, DIRTY, CAUSE and INFO blotted out. -/
def State.sansHostOnly (s : State) : State := { s with st := 0#8, dirty := false, cause := .none, info := 0#16 }

theorem sameButHostOnly_iff {s s' : State} : SameButHostOnly s s' ↔ s'.sansHostOnly = s.sansHostOnly := by
  constructor
  · intro h
    rw [SameButHostOnly] at h
    rw [h]
    rfl
  · intro h
    cases s
    cases s'
    simp only [State.sansHostOnly, State.mk.injEq, SameButHostOnly, true_and] at h ⊢
    exact h

@[simp] theorem State.sansHostOnly_pc (s : State) : s.sansHostOnly.pc = s.pc := rfl
@[simp] theorem State.lowestKeyDown_sansHostOnly (s : State) : s.sansHostOnly.lowestKeyDown = s.lowestKeyDown := rfl

theorem State.pop_sansHostOnly (s : State) : s.sansHostOnly.pop = s.pop.map fun p => (p.1, p.2.sansHostOnly) := by
  by_cases h : 0 < s.sp.val <;> simp [State.pop, h, State.sansHostOnly]

theorem State.push_sansHostOnly (s : State) (a : Word) : s.sansHostOnly.push a = (s.push a).map State.sansHostOnly := by
  by_cases h : s.sp.val < Config.stackDepth <;> simp [State.push, h, State.sansHostOnly]

/-- With the host's state blotted out before an instruction, the outcome is the same but for that state. -/
theorem exec_sansHostOnly (i : Instr) (s : State) :
    onNext State.sansHostOnly (exec i s.sansHostOnly) = onNext State.sansHostOnly (exec i s) := by
  cases i
  case op00EE => simp only [exec, exec00EE, State.pop_sansHostOnly]; cases s.pop <;> rfl
  case op2NNN nnn =>
    simp only [exec, exec2NNN, State.sansHostOnly_pc, State.push_sansHostOnly]; cases s.push s.pc <;> rfl
  case opFX0A x => simp only [exec, execFX0A, State.lowestKeyDown_sansHostOnly]; cases s.lowestKeyDown <;> rfl
  case opEX9E x | opEXA1 x =>
    exact congrArg Host.Outcome.next (map_ite_eq_map State.sansHostOnly State.sansHostOnly rfl rfl)
  case opDXYN x y n | opFX33 x | opFX55 x | opFX65 x =>
    exact map_ite_eq_map (onNext State.sansHostOnly) (onNext State.sansHostOnly) rfl rfl
  all_goals rfl

theorem cycle_sansHostOnly (s : State) :
    onNext State.sansHostOnly (cycle s.sansHostOnly) = onNext State.sansHostOnly (cycle s) := by
  obtain ⟨hs, he⟩ | ⟨hs, hf, he⟩ | ⟨op, hs, hf, hd, he⟩ | ⟨op, i, hs, hf, hd, he⟩ := cycle_cases s <;> rw [he]
  · rw [cycle_of_halted (s := s.sansHostOnly) hs]; rfl
  · rw [cycle_of_no_fetch (s := s.sansHostOnly) hs hf]; rfl
  · rw [cycle_of_illegal (s := s.sansHostOnly) hs hf hd]; rfl
  · rw [cycle_of_decode (s := s.sansHostOnly) hs hf hd]; exact exec_sansHostOnly i s

/-- Settles O22: both cycles are the cycle of the one state left when the host's is blotted out. -/
theorem hostOnlyStateNeverSteersTheCpu : Obligations.HostOnlyStateNeverSteersTheCpu := by
  intro s s' t h hcycle
  obtain ⟨t', hcycle'⟩ := cycle_answers_next s'
  have heq : onNext State.sansHostOnly (cycle s') = onNext State.sansHostOnly (cycle s) := by
    rw [← cycle_sansHostOnly s', sameButHostOnly_iff.mp h, cycle_sansHostOnly]
  rw [hcycle, hcycle'] at heq
  exact ⟨t', hcycle', sameButHostOnly_iff.mpr (Host.Outcome.next.inj heq)⟩

/-! ### Dead stack entries (R24) -/

/-- Another stack differs in dead entries only. -/
def SameLive (stk : StackFile) (s : State) : Prop :=
  ∀ k (_ : k < Config.stackDepth), k < s.sp.val → stk[k] = s.stk[k]

/-- Writing the entry at SP in both makes them agree there too. -/
theorem SameLive.set {stk : StackFile} {s : State} (h : SameLive stk s) (hroom : s.sp.val < Config.stackDepth)
    (a : Word) {j : Nat} (hj : j < Config.stackDepth) (hlt : j < s.sp.val + 1) :
    (stk.set s.sp.val a hroom)[j] = (s.stk.set s.sp.val a hroom)[j] := by
  rw [Vector.getElem_set, Vector.getElem_set]
  split
  · rfl
  · exact h j hj (by omega)

theorem sameButDeadStack_withStack {stk : StackFile} {s : State} (h : SameLive stk s) :
    SameButDeadStack s (s.withStack stk s.sp) := ⟨rfl, h⟩

theorem SameButDeadStack.exists_withStack {s s' : State} (h : SameButDeadStack s s') :
    ∃ stk, SameLive stk s ∧ s' = s.withStack stk s.sp := by
  obtain ⟨heq, hlive⟩ := h
  exact ⟨s'.stk, hlive, heq⟩

/-- A return reads the top live entry only. -/
theorem exec_op00EE_sameButDeadStack {s s' t : State} (h : SameButDeadStack s s') (he : exec .op00EE s = .next t) :
    ∃ t', exec .op00EE s' = .next t' ∧ SameButDeadStack t t' := by
  obtain ⟨stk, hlive, rfl⟩ := h.exists_withStack
  cases hsp : s.sp.val with
  | zero =>
    cases (exec_op00EE_of_empty hsp).symm.trans he
    exact ⟨_, exec_op00EE_of_empty (s := s.withStack stk s.sp) hsp, sameButDeadStack_withStack hlive⟩
  | succ k =>
    have hk : k < Config.stackDepth := by have := s.sp.isLt; omega
    have htop : stk[k] = s.stk[k] := hlive k hk (by omega)
    cases (exec_op00EE_of_succ hk hsp).symm.trans he
    refine ⟨_, exec_op00EE_of_succ (s := s.withStack stk s.sp) hk hsp, ?_⟩
    rw [show (s.withStack stk s.sp).stk[k] = s.stk[k] from htop]
    exact sameButDeadStack_withStack fun j hj hlt => hlive j hj (by rw [hsp]; exact Nat.lt_succ_of_lt hlt)

/-- A call makes the entry at SP alive, and writes it first. -/
theorem exec_op2NNN_sameButDeadStack {nnn : Addr12} {s s' t : State} (h : SameButDeadStack s s')
    (he : exec (.op2NNN nnn) s = .next t) : ∃ t', exec (.op2NNN nnn) s' = .next t' ∧ SameButDeadStack t t' := by
  obtain ⟨stk, hlive, rfl⟩ := h.exists_withStack
  obtain hroom | hfull := s.room_or_full
  · cases (exec_op2NNN_of_room nnn hroom).symm.trans he
    refine ⟨_, exec_op2NNN_of_room (s := s.withStack stk s.sp) nnn hroom, sameButDeadStack_withStack ?_⟩
    exact fun j hj hlt => hlive.set hroom s.pc hj hlt
  · cases (exec_op2NNN_of_full nnn hfull).symm.trans he
    exact ⟨_, exec_op2NNN_of_full (s := s.withStack stk s.sp) nnn hfull, sameButDeadStack_withStack hlive⟩

theorem exec_sameButDeadStack {i : Instr} {s s' t : State} (h : SameButDeadStack s s') (he : exec i s = .next t) :
    ∃ t', exec i s' = .next t' ∧ SameButDeadStack t t' := by
  by_cases hret : i = .op00EE
  · subst hret
    exact exec_op00EE_sameButDeadStack h he
  by_cases hcall : ∃ nnn, i = .op2NNN nnn
  · obtain ⟨nnn, rfl⟩ := hcall
    exact exec_op2NNN_sameButDeadStack h he
  · obtain ⟨stk, hlive, rfl⟩ := h.exists_withStack
    obtain ⟨hsp, hstk⟩ := exec_sameStack he hret (not_exists.mp hcall)
    refine ⟨t.withStack stk t.sp, ?_, sameButDeadStack_withStack fun j hj hlt => ?_⟩
    · rw [exec_withStack hret (not_exists.mp hcall), he, onNext, hsp]
    · simp only [hstk]
      exact hlive j hj (by rwa [hsp] at hlt)

theorem cycle_sameButDeadStack {s s' t : State} (h : SameButDeadStack s s') (hc : cycle s = .next t) :
    ∃ t', cycle s' = .next t' ∧ SameButDeadStack t t' := by
  obtain ⟨stk, hlive, rfl⟩ := h.exists_withStack
  obtain ⟨hs, he⟩ | ⟨hs, hf, he⟩ | ⟨op, hs, hf, hd, he⟩ | ⟨op, i, hs, hf, hd, he⟩ := cycle_cases s
  · cases he.symm.trans hc
    exact ⟨_, cycle_of_halted (s := s.withStack stk s.sp) hs, h⟩
  · cases he.symm.trans hc
    exact ⟨_, cycle_of_no_fetch (s := s.withStack stk s.sp) hs hf, sameButDeadStack_withStack hlive⟩
  · cases he.symm.trans hc
    exact ⟨_, cycle_of_illegal (s := s.withStack stk s.sp) hs hf hd, sameButDeadStack_withStack hlive⟩
  · rw [cycle_of_decode (s := s.withStack stk s.sp) hs hf hd]
    exact exec_sameButDeadStack h (he.symm.trans hc)

theorem runEvent_sameButDeadStack {e : Event} {s s' t : State} (h : SameButDeadStack s s')
    (hr : runEvent e s = .next t) : ∃ t', runEvent e s' = .next t' ∧ SameButDeadStack t t' := by
  obtain ⟨stk, hlive, rfl⟩ := h.exists_withStack
  cases e with
  | cycle => exact cycle_sameButDeadStack h hr
  | tick => cases hr; exact ⟨_, rfl, sameButDeadStack_withStack hlive⟩
  | keyWrite k => cases hr; exact ⟨_, rfl, sameButDeadStack_withStack hlive⟩
  | frameRead => cases hr; exact ⟨_, rfl, sameButDeadStack_withStack hlive⟩

/-- The steps to come are the same, and are no stack entries. -/
theorem SameButDeadStack.under {s s' : State} (h : SameButDeadStack s s') (es : List Event) (d : Driver) :
    SameButDeadStack (s.under es d) (s'.under es d) := by
  obtain ⟨stk, hlive, rfl⟩ := h.exists_withStack
  exact sameButDeadStack_withStack (s := s.under es d) hlive

theorem SameButDeadStack.outputs_eq {s s' : State} (h : SameButDeadStack s s') : s'.outputs = s.outputs := by
  obtain ⟨stk, -, rfl⟩ := h.exists_withStack
  rfl

theorem SameButDeadStack.received_eq {s s' : State} (h : SameButDeadStack s s') (e : Event) :
    received e s' = received e s := by
  obtain ⟨stk, -, rfl⟩ := h.exists_withStack
  rfl

/-- Settles O23: the relation is kept by every atomic step, and nothing the host reads is a stack entry. -/
theorem deadStackEntriesAreUnobservable : Obligations.DeadStackEntriesAreUnobservable := by
  intro s s' t h hstep
  obtain ⟨e, es, d, hruns⟩ := step_runs_event s.schedule s.driver
  obtain ⟨t', hrun', ht⟩ := runEvent_sameButDeadStack (h.under es d) ((hruns s rfl rfl).symm.trans hstep)
  have hfuture : s'.schedule = s.schedule ∧ s'.driver = s.driver := by
    obtain ⟨stk, -, rfl⟩ := h.exists_withStack
    exact ⟨rfl, rfl⟩
  obtain ⟨hs, hd⟩ := hfuture
  exact ⟨t', (hruns s' hs hd).trans hrun', ht, ht.outputs_eq, ht.received_eq⟩

end Sys2Proof.Machine
end

section
/-! PROOFS, family other, schedules and drivers: the events of a schedule run in their order, and each driver gives its
steps without end (spec/00_scope.md R7; spec/70_reset_and_hazards.md R233). -/

namespace Sys2Proof.Machine

/-! ### Runs of the atomic steps -/

/-- The state after a list of events is where running them leads. -/
theorem runs_afterEvents (s : State) (es : List Event) : Runs s es (s.afterEvents es) := by
  induction es generalizing s with
  | nil => exact .done s
  | cons e es ih => exact .more (runEvent_eq_next e s) (ih _)

theorem State.afterEvents_under (es' : List Event) (d : Driver) (s : State) (es : List Event) :
    (s.under es' d).afterEvents es = (s.afterEvents es).under es' d := by
  induction es generalizing s with
  | nil => rfl
  | cons e es ih => rw [State.afterEvents_cons, State.afterEvents_cons, State.afterEvent_under, ih]

theorem State.afterEvents_append (s : State) (es es' : List Event) :
    s.afterEvents (es ++ es') = (s.afterEvents es).afterEvents es' := List.foldl_append ..

/-- A state with nothing scheduled has nothing scheduled after any events. -/
theorem State.afterEvents_under_own {s : State} (hs : s.schedule = []) (es : List Event) :
    (s.afterEvents es).under [] s.driver = s.afterEvents es := by
  rw [← State.afterEvents_under, ← hs, State.under_own]

/-- Settles O14: the schedule runs to the state after its events. -/
theorem eventsRunInTheScheduledOrder : Obligations.EventsRunInTheScheduledOrder := by
  refine fun es s => ⟨_, core_run_under_schedule s es s.driver, ?_⟩
  rw [← State.afterEvents_under]
  exact runs_afterEvents (s.under [] s.driver) es

/-! ### Runs of the machine -/

/-- A run may be cut at any of its states. -/
theorem core_run_add {m : Nat} {s t : State} (h : Sys2Proof.core.run m s = .next t) (n : Nat) :
    Sys2Proof.core.run (m + n) s = Sys2Proof.core.run n t := by
  induction m generalizing s with
  | zero => cases h; rw [Nat.zero_add]
  | succ m ih =>
    obtain ⟨u, hu⟩ := step_answers_next s
    rw [Nat.succ_add, core_run_of_next hu]
    exact ih ((core_run_of_next hu).symm.trans h)

/-- States whose next steps are the same have the same runs. -/
theorem core_run_congr {s s' : State} (h : step s = step s') (n : Nat) :
    Sys2Proof.core.run (n + 1) s = Sys2Proof.core.run (n + 1) s' := by
  obtain ⟨t, ht⟩ := step_answers_next s
  rw [core_run_of_next ht, core_run_of_next (h ▸ ht)]

/-- One lap of a repeating driver runs its events once and leaves the driver as it was. -/
theorem core_run_lap {s : State} {e : Event} {es : List Event} (hs : s.schedule = [])
    (hd : s.driver = .repeats e es) :
    Sys2Proof.core.run (es.length + 1) s = .next (s.afterEvents (e :: es)) := by
  rw [core_run_congr (step_of_repeats hs hd)]
  exact (core_run_under_schedule s (e :: es) s.driver).trans (by rw [State.afterEvents_under_own hs])

/-- Any number of laps. -/
theorem core_run_laps {s : State} {e : Event} {es : List Event} (hs : s.schedule = [])
    (hd : s.driver = .repeats e es) (m : Nat) :
    Sys2Proof.core.run (m * (es.length + 1)) s =
      .next (s.afterEvents (List.replicate m (e :: es)).flatten) := by
  induction m generalizing s with
  | zero => rw [Nat.zero_mul]; rfl
  | succ m ih =>
    have hs' : (s.afterEvents (e :: es)).schedule = [] := by
      rw [← State.afterEvents_under_own hs, State.under_schedule]
    have hd' : (s.afterEvents (e :: es)).driver = .repeats e es := (s.afterEvents_driver _).trans hd
    rw [Nat.succ_mul, Nat.add_comm, core_run_add (core_run_lap hs hd), ih hs' hd', List.replicate_succ,
      List.flatten_cons, State.afterEvents_append]

/-- The first `n` free values from place `k` on. -/
def freeEvents (k n : Nat) : List Event := (List.range n).map fun j => Config.freeEvent (k + j)

theorem freeEvents_succ (k n : Nat) : freeEvents k (n + 1) = freeEvents k n ++ [Config.freeEvent (k + n)] := by
  simp [freeEvents, List.range_succ]

/-- An unconstrained driver at its place `k` runs the free values from there on, one a step. -/
theorem core_run_free (s : State) (k n : Nat) :
    Sys2Proof.core.run n (s.under [] (.free k)) =
      .next ((s.afterEvents (freeEvents k n)).under [] (.free (k + n))) := by
  induction n with
  | zero => rfl
  | succ n ih =>
    rw [core_run_add ih, core_run_of_next (stepUnder_under_free Config.freeEvent _ (k + n)), core_run_zero,
      freeEvents_succ, State.afterEvents_append]
    rfl

/-- Settles O16: alone a cycle, repeating lap by lap, unconstrained event by event. -/
theorem driverGivesTheStepsWithoutEnd : Obligations.DriverGivesTheStepsWithoutEnd := by
  refine ⟨fun s hs hd => stepUnder_of_alone _ hs hd,
    fun s e es m hs hd => ⟨_, core_run_laps hs hd m, runs_afterEvents s _⟩,
    fun s k n hs hd => ⟨s.afterEvents (freeEvents k n), ?_, runs_afterEvents s _⟩⟩
  have hown : s.under [] (.free k) = s := by rw [← hs, ← hd, State.under_own]
  have hfree : (s.afterEvents (freeEvents k n)).under [] (.free (k + n)) =
      { s.afterEvents (freeEvents k n) with driver := .free (k + n) } := by
    rw [← State.afterEvents_under_own hs]
    rfl
  rw [← hfree, ← core_run_free, hown]

end Sys2Proof.Machine
end

section
/-! PROOFS, family other, construction, reset and the host's steps (spec/10_state.md R33; spec/42_display.md R156, R157;
spec/43_keypad_timers.md R171; spec/60_exceptions.md R205; spec/70_reset_and_hazards.md R230 to R234). -/

namespace Sys2Proof.Machine

/-! ### Construction (R205, R230, R231) -/

theorem construct_of_fits (dirty : Bool) {rom : List Byte} (h : rom.length ≤ 0xE00) :
    construct dirty rom = { State.reset with dirty := dirty, mem := State.reset.mem.storeBytes 0x200 rom } :=
  if_neg (Nat.not_lt.mpr h)

theorem construct_of_oversized (dirty : Bool) {rom : List Byte} (h : 0xE00 < rom.length) :
    construct dirty rom = State.raise { State.reset with dirty := dirty } .resourceError
      (BitVec.ofNat 16 (min rom.length 0xFFFF)) :=
  if_pos h

/-- Settles O19: a ROM that fits ends inside memory; an oversized one is a fault taken from reset. -/
theorem constructionMeetsTheInvariant : Obligations.ConstructionMeetsTheInvariant := by
  intro dirty rom
  obtain ⟨hmem, hpc, hstack, hlatch, hinfo⟩ := resetMeetsTheInvariant
  obtain h | h := Nat.lt_or_ge 0xE00 rom.length
  · rw [construct_of_oversized dirty h]
    exact State.Inv.raise (s := { State.reset with dirty := dirty }) (c := .resourceError)
      ⟨hmem, hpc, hstack, hlatch, hinfo⟩ nofun _
  · rw [construct_of_fits dirty h]
    exact ⟨Memory.storeBytes_wf hmem (Nat.add_le_add_left h 0x200), hpc, hstack, hlatch, hinfo⟩

/-- With the empty ROM memory is as at reset, 0 at PC (D13). -/
theorem fetchWord_construct_nil (dirty : Bool) : (construct dirty []).fetchWord = some 0x0000#16 := by
  have hreset : State.reset.fetchWord = some 0x0000#16 := by decide
  exact hreset

/-- Settles O24: the ROM is one block stored at 0x200, an oversized one a fault taken before it is stored. -/
theorem constructionLoadsTheRomOrHalts : Obligations.ConstructionLoadsTheRomOrHalts := by
  refine ⟨fun dirty rom h => ?_, fun dirty rom h => ?_, fun dirty => ?_⟩
  · rw [construct_of_fits dirty h]
    exact ⟨rfl, fun k hk => Memory.load_storeBytes_at _ _ hk, fun a ha => Memory.load_storeBytes_outside ha⟩
  · rw [construct_of_oversized dirty h]
    refine ⟨rfl, rfl, ?_⟩
    rw [State.raise_info, BitVec.toNat_ofNat]
    omega
  · exact cycle_of_illegal rfl (fetchWord_construct_nil dirty) (by decide)

/-! ### Reset (R33) -/

theorem resetByte_of_font {k : Nat} (h : k < font.length) : resetByte (0x050 + k) = font[k] := by
  rw [resetByte, fontBase, if_pos (Nat.le_add_right ..), Nat.add_sub_cancel_left, List.getD_eq_getElem _ _ h]

theorem resetByte_outside_font {a : Nat} (h : a < 0x050 ∨ 0x0A0 ≤ a) : resetByte a = 0#8 := by
  rw [resetByte, fontBase]
  split
  · exact List.getD_eq_default _ _ (show 80 ≤ a - 0x050 by omega)
  · rfl

theorem State.reset_reg (r : RegIx) : State.reset.reg r = 0#8 := Vector.getElem_replicate _

theorem State.reset_keyDown (k : Nat) : State.reset.keyDown k = false := BitVec.getLsbD_zero

/-- Settles O25: memory after reset is the construction contents, the font's 80 bytes at 0x050. -/
theorem resetStateIsAsTabled : Obligations.ResetStateIsAsTabled :=
  ⟨State.reset_reg, rfl, rfl, rfl, rfl, rfl, Framebuffer.pixel_clear, State.reset_keyDown, rfl, rfl, rfl,
    fun _ => resetByte_of_font, rfl, fun _ => resetByte_outside_font⟩

/-! ### The host's steps (R156, R157, R171, R234) -/

/-- Settles O27: the keys are the word written. -/
theorem keyWriteReplacesAllSixteenFlags : Obligations.KeyWriteReplacesAllSixteenFlags :=
  fun s k => ⟨s.keyWrite k, (runEvent_hostStep s).2.1 k, rfl, fun _ _ => rfl⟩

/-- A list of rows of one length, put one after the other: where element `x` of row `y` stands. -/
theorem getElem?_flatMap_row {α β : Type} {f : α → List β} {n : Nat} {l : List α} (h : ∀ a ∈ l, (f a).length = n)
    {y x : Nat} (hx : x < n) : (l.flatMap f)[n * y + x]? = l[y]?.bind fun a => (f a)[x]? := by
  induction l generalizing y with
  | nil => simp
  | cons a l ih =>
    obtain ⟨ha, hl⟩ := List.forall_mem_cons.mp h
    rw [List.flatMap_cons]
    cases y with
    | zero => rw [Nat.mul_zero, Nat.zero_add, List.getElem?_append_left (by omega)]; rfl
    | succ y =>
      rw [Nat.mul_succ, Nat.add_right_comm, List.getElem?_append_right (by omega), ha, Nat.add_sub_cancel, ih hl,
        List.getElem?_cons_succ]

theorem length_flatMap_rows {α β : Type} {f : α → List β} {n : Nat} {l : List α} (h : ∀ a ∈ l, (f a).length = n) :
    (l.flatMap f).length = l.length * n := by
  rw [List.length_flatMap, List.map_congr_left h, List.map_const', List.sum_replicate, smul_eq_mul]

theorem State.frame_row_length (s : State) : ∀ row ∈ s.fb.toList, (row.toList.map BitVec.ofBool).length = 64 := by
  simp

theorem State.frame_length (s : State) : s.frame.length = 2048 := by
  rw [State.frame, length_flatMap_rows s.frame_row_length, Vector.length_toList]
  rfl

/-- Element `64 * y + x` of the frame is pixel (`y`, `x`) (D18). -/
theorem State.frame_getElem? (s : State) (y : Fin 32) (x : Fin 64) :
    s.frame[64 * y.val + x.val]? = some (BitVec.ofBool (s.fb.pixel y x)) := by
  rw [State.frame, getElem?_flatMap_row s.frame_row_length x.isLt]
  simp [Framebuffer.pixel]

/-- Settles O28: the frame is 32 rows of 64 pixels, one after the other. -/
theorem frameReadDeliversTheFrameAndClearsDirty : Obligations.FrameReadDeliversTheFrameAndClearsDirty :=
  fun s => ⟨(runEvent_hostStep s).2.2, rfl, s.frame_length, s.frame_getElem?⟩

/-- Settles O29: by the kind of event; no output names the framebuffer. -/
theorem framebufferReachesTheHostOnlyByFrameRead : Obligations.FramebufferReachesTheHostOnlyByFrameRead := by
  refine ⟨fun _ => rfl, fun s e he => ?_, fun _ _ => rfl⟩
  cases e with
  | frameRead => exact absurd rfl he
  | cycle => rfl
  | tick => rfl
  | keyWrite k => rfl

end Sys2Proof.Machine
end
